-- ==== Sys2Proof/Word.lean ====
section
/-! DEFINITION. The bit vectors of the core and the shapes of its two register arrays
(00_scope.md R7: every value is an unsigned bit vector of a stated width). -/

namespace Sys2Proof

/-- A byte of the command or response stream (20_memory.md R31). -/
abbrev Byte := BitVec 8

/-- A table entry, or a nibble of a word (20_memory.md R35). -/
abbrev Nibble := BitVec 4

/-- A 32-bit word: a key word or a half of the block (00_scope.md section 7). -/
abbrev Word := BitVec 32

/-- The lookup table array: eight tables of sixteen 4-bit entries (10_state.md R13). -/
abbrev Lut := Vector (Vector Nibble 16) 8

/-- The eight key registers (10_state.md R12). -/
abbrev Keys := Vector Word 8

end Sys2Proof
end

