-- ==== Sys2Proof/Config.lean ====
section
/-! DEFINITION. The parameters the document fixes (00_scope.md R4) and the free values: what the
spec leaves unspecified although the machine goes on (10_state.md R27, 43_block_transform.md R127).
`T_CMD` and `LUT_PACKING` are ignored, as R4 says. -/

namespace Sys2Proof.Config

/-- `BLOCK_BYTES` (00_scope.md R4). -/
def blockBytes : Nat := 8

/-- `KEY_BYTES` (00_scope.md R4). -/
def keyBytes : Nat := 32

/-- Required LEN of SBOX_LOAD: `NTABLES` tables of `TABLE_ENTRIES` entries, one byte each
(00_scope.md R4, 30_encoding.md R55). -/
def setBytes : Nat := 128

/-- Required LEN of SBOX_LOOKUP (30_encoding.md R52). -/
def lookupBytes : Nat := 1

/-- `ROUNDS` (00_scope.md R4). -/
def rounds : Nat := 32

/-- The largest payload a frame can declare: LEN is one byte (30_encoding.md R53). -/
def maxPayload : Nat := 255

/-- Free value: what a completed transform leaves in N1 or N2, "unspecified values" by
43_block_transform.md R127. No body, so nothing can be proved of it (log entry 5). -/
opaque freeHalf : Nat → Word

/-- Free value: what a completed transform leaves in RC. Unspecified by R127, within the values
0 to 32 that 10_state.md R16 allows the register (log entry 5). -/
opaque freeRounds : Nat → Fin 33

/-- Free value: what a completed transform leaves in DIR, unspecified by R127 (log entry 5). -/
opaque freeDir : Nat → Bool

end Sys2Proof.Config
end

