-- ==== Sys2Proof/Syntax.lean ====
section
/-! DEFINITION. The commands, one constructor per row of spec/opcode_table.json: the five commands
of 30_encoding.md R52 and the seven rows that tile the reserved opcodes (R61). Every command carries
its payload as sent, of any declared length: a wrong LEN makes a command fail, it does not make it
another command (R53, R54). -/

namespace Sys2Proof

inductive Instr where
  /-- SBOX_LOAD, opcode 0x01 (40_sbox.md R72). -/
  | sboxLoad (payload : List Byte)
  /-- SBOX_LOOKUP, opcode 0x02 (40_sbox.md R77). -/
  | sboxLookup (payload : List Byte)
  /-- KEY_LOAD, opcode 0x03 (41_key_schedule.md R90). -/
  | keyLoad (payload : List Byte)
  /-- ENCRYPT, opcode 0x04 (43_block_transform.md R125). -/
  | encrypt (payload : List Byte)
  /-- DECRYPT, opcode 0x05 (43_block_transform.md R126). -/
  | decrypt (payload : List Byte)
  /-- Reserved opcode 0x00 (30_encoding.md R61). -/
  | reserved00 (payload : List Byte)
  /-- Reserved opcodes 0x06..0x07; `low` is the opcode's bit 0. -/
  | reserved06 (low : BitVec 1) (payload : List Byte)
  /-- Reserved opcodes 0x08..0x0F; `low` is the opcode's bits 2:0. -/
  | reserved08 (low : BitVec 3) (payload : List Byte)
  /-- Reserved opcodes 0x10..0x1F; `low` is the opcode's bits 3:0. -/
  | reserved10 (low : BitVec 4) (payload : List Byte)
  /-- Reserved opcodes 0x20..0x3F; `low` is the opcode's bits 4:0. -/
  | reserved20 (low : BitVec 5) (payload : List Byte)
  /-- Reserved opcodes 0x40..0x7F; `low` is the opcode's bits 5:0. -/
  | reserved40 (low : BitVec 6) (payload : List Byte)
  /-- Reserved opcodes 0x80..0xFF; `low` is the opcode's bits 6:0. -/
  | reserved80 (low : BitVec 7) (payload : List Byte)
  deriving DecidableEq, Repr

/-- The payload of a command frame (30_encoding.md R50). -/
def Instr.payload : Instr → List Byte
  | .sboxLoad p => p
  | .sboxLookup p => p
  | .keyLoad p => p
  | .encrypt p => p
  | .decrypt p => p
  | .reserved00 p => p
  | .reserved06 _ p => p
  | .reserved08 _ p => p
  | .reserved10 _ p => p
  | .reserved20 _ p => p
  | .reserved40 _ p => p
  | .reserved80 _ p => p

end Sys2Proof
end

