-- ==== Sys2Proof/WellFormed.lean ====
section
/-! DEFINITION. Which commands a frame can carry. The only check: the payload fits the one-byte LEN
(30_encoding.md R53: LEN is an unsigned 8-bit count). The reserved rows' free opcode bits are bounded
by their types. -/

namespace Sys2Proof

/-- A command some frame carries: at most 255 payload bytes. -/
def Instr.wellFormed (i : Instr) : Bool := decide (i.payload.length ≤ Config.maxPayload)

end Sys2Proof
end

