-- ==== Sys2Proof/Decode.lean ====
section
/-! DEFINITION. Splitting the command stream into frames and reading a command from a frame
(30_encoding.md R50 to R54, R61, R64), and the encoder written from the same table. Total on any
bytes: every opcode selects a row, so the only rejections are frames whose bytes have not all
arrived, each by name. -/

namespace Sys2Proof

/-- Why bytes hold no whole frame (30_encoding.md R64, 70_reset_and_hazards.md R181). -/
inductive DecodeError where
  /-- No byte at all: the OPCODE is missing. -/
  | opcodeMissing
  /-- The OPCODE has arrived and the LEN byte has not. -/
  | lenMissing
  /-- Fewer than LEN payload bytes have arrived. -/
  | payloadIncomplete
  deriving DecidableEq, Repr

/-- A row of the opcode map: the opcodes `op` with `op &&& mask = value`. -/
structure OpcodeRow where
  mask : Byte
  value : Byte
  deriving DecidableEq, Repr

/-- The rows of spec/opcode_table.json in its order (match and mask). -/
def opcodeRows : List OpcodeRow :=
  [⟨0xFF, 0x01⟩, ⟨0xFF, 0x02⟩, ⟨0xFF, 0x03⟩, ⟨0xFF, 0x04⟩, ⟨0xFF, 0x05⟩, ⟨0xFF, 0x00⟩,
   ⟨0xFE, 0x06⟩, ⟨0xF8, 0x08⟩, ⟨0xF0, 0x10⟩, ⟨0xE0, 0x20⟩, ⟨0xC0, 0x40⟩, ⟨0x80, 0x80⟩]

/-- Does the row select this opcode? -/
def OpcodeRow.selects (row : OpcodeRow) (op : Byte) : Bool := op &&& row.mask == row.value

/-- The command an opcode selects; decode looks at nothing else (30_encoding.md R52, R61). -/
def decodeOpcode (op : Byte) (payload : List Byte) : Instr :=
  if op = 0x01#8 then .sboxLoad payload
  else if op = 0x02#8 then .sboxLookup payload
  else if op = 0x03#8 then .keyLoad payload
  else if op = 0x04#8 then .encrypt payload
  else if op = 0x05#8 then .decrypt payload
  else if op = 0x00#8 then .reserved00 payload
  else if op &&& 0xFE#8 = 0x06#8 then .reserved06 (op.setWidth 1) payload
  else if op &&& 0xF8#8 = 0x08#8 then .reserved08 (op.setWidth 3) payload
  else if op &&& 0xF0#8 = 0x10#8 then .reserved10 (op.setWidth 4) payload
  else if op &&& 0xE0#8 = 0x20#8 then .reserved20 (op.setWidth 5) payload
  else if op &&& 0xC0#8 = 0x40#8 then .reserved40 (op.setWidth 6) payload
  else .reserved80 (op.setWidth 7) payload

/-- The length of the frame that starts the bytes: 2 + LEN, found from the second byte alone
(30_encoding.md R64); 2 while the LEN byte has not arrived. -/
def frameLength : List Byte → Nat
  | _ :: len :: _ => 2 + len.toNat
  | _ => 2

/-- Have all bytes of the first frame arrived? -/
def frameWhole (bytes : List Byte) : Bool := decide (frameLength bytes ≤ bytes.length)

/-- The first command of a byte sequence and the bytes after its frame (30_encoding.md R50, R54). -/
def decode : List Byte → Except DecodeError (Instr × List Byte)
  | [] => .error .opcodeMissing
  | [_] => .error .lenMissing
  | op :: len :: rest =>
    if len.toNat ≤ rest.length then
      .ok (decodeOpcode op (rest.take len.toNat), rest.drop len.toNat)
    else .error .payloadIncomplete

/-- The OPCODE byte of a command (30_encoding.md R52, spec/opcode_table.json). -/
def opcodeOf : Instr → Byte
  | .sboxLoad _ => 0x01
  | .sboxLookup _ => 0x02
  | .keyLoad _ => 0x03
  | .encrypt _ => 0x04
  | .decrypt _ => 0x05
  | .reserved00 _ => 0x00
  | .reserved06 low _ => 0b0000011#7 ++ low
  | .reserved08 low _ => 0b00001#5 ++ low
  | .reserved10 low _ => 0b0001#4 ++ low
  | .reserved20 low _ => 0b001#3 ++ low
  | .reserved40 low _ => 0b01#2 ++ low
  | .reserved80 low _ => 0b1#1 ++ low

/-- The frame of a command: OPCODE, LEN, PAYLOAD (30_encoding.md R50, R65). -/
def encode (i : Instr) : List Byte :=
  opcodeOf i :: BitVec.ofNat 8 i.payload.length :: i.payload

/-- The bytes of a word numbered as spec/opcode_table.json numbers bits (bit 0 is the least
significant bit of the first byte), followed by zero bytes up to more than the longest frame. -/
def tableBytes (nbits w : Nat) : List Byte :=
  ((List.range ((nbits + 7) / 8)).map fun i => BitVec.ofNat 8 ((w % 2 ^ nbits) / 2 ^ (8 * i)))
    ++ List.replicate 257 0#8

/-- The frame that those bytes begin with. -/
def tableFrame (nbits w : Nat) : List Byte :=
  (tableBytes nbits w).take (frameLength (tableBytes nbits w))

/-- The command the decoder reads from an instruction word of the opcode table. -/
def decodeTableWord (nbits w : Nat) : Option Instr :=
  match decode (tableFrame nbits w) with
  | .ok (i, _) => some i
  | .error _ => none

end Sys2Proof
end

