-- ==== Sys2Proof/Machine/State.lean ====
section
/-! DEFINITION. The state of the core (10_state.md R10) with its host interface, as plain data, and
the state after reset (10_state.md R26). -/

namespace Sys2Proof.Machine

/-- Where the core is in the handling of a frame (10_state.md R18). -/
inductive Phase where
  /-- No frame in progress; the next byte of the command stream is an OPCODE. -/
  | idle
  /-- The OPCODE has been taken; LEN or payload bytes are still to come. -/
  | recv
  /-- The whole frame is in RXBUF and the command's rule is being applied. -/
  | exec
  /-- The response frame is being sent. -/
  | resp
  deriving DecidableEq, Repr

/-- The STATUS of a response (30_encoding.md R59). `invalidInputLength` and `bufferTooSmall` belong
to the host's ECB sequence; the core never emits them (R62). -/
inductive Status where
  | ok
  | invalidParameters
  | invalidKeyLength
  | invalidBlockSize
  | invalidInputLength
  | bufferTooSmall
  | notConfigured
  | illegalCommand
  deriving DecidableEq, Repr

/-- A response frame: STATUS and the RESULT bytes; RLEN is their number (30_encoding.md R51). -/
structure Response where
  status : Status
  result : List Byte
  deriving DecidableEq, Repr

structure State where
  /-- `LUT[t][x]`, the active substitution tables (10_state.md R13). -/
  lut : Lut
  /-- `SBOX_VALID` (10_state.md R14). -/
  sboxValid : Bool
  /-- `K[0..7]`, the key registers (10_state.md R12). -/
  k : Keys
  /-- `KEY_VALID` (10_state.md R15). -/
  keyValid : Bool
  /-- `N1`, the first half of the block being transformed (10_state.md R11). -/
  n1 : Word
  /-- `N2`, the second half (10_state.md R11). -/
  n2 : Word
  /-- `RC`, the rounds completed in the current transform (10_state.md R16). -/
  rc : BitVec 6
  /-- `DIR`: false (0) is the encryption order, true (1) the decryption order (10_state.md R17). -/
  dir : Bool
  /-- `PHASE` (10_state.md R18). -/
  phase : Phase
  /-- `RXBUF`: the bytes of the command frame in progress, OPCODE first (10_state.md R19). -/
  rxbuf : List Byte
  /-- The response frame being sent, if any (10_state.md R18, R26). -/
  tx : Option Response
  /-- Command stream: bytes the host has sent and the core has not taken, first to take first
  (20_memory.md R31, R41). -/
  cmd : List Byte
  /-- Response stream: the response frames delivered to the host since the last reset, in order
  (00_scope.md R6, 20_memory.md R43). -/
  rsp : List Response
  /-- The reset input, true while asserted (70_reset_and_hazards.md R175). -/
  rst : Bool
  /-- The host takes response bytes (70_reset_and_hazards.md R182, 30_encoding.md R67). -/
  rspReady : Bool
  /-- The model's own: numbers the free values of `Config` (log entries 5, 6). -/
  freeCount : Nat
  deriving DecidableEq, Repr

/-- Why the machine stops. All three are the spec's stuck states or lie outside every run; an error
of a command is no fault but a response (60_exceptions.md R150). -/
inductive Fault where
  /-- The command stream ended inside a frame: the core waits in PHASE = RECV with nothing to take
  (70_reset_and_hazards.md R181, 93_implementation_defined.md U10: stuck). Raised by the cycle of
  the core, `step`. Safe: the spec gives no next state. -/
  | frameIncomplete
  /-- The host does not read the response: the core stays in PHASE = RESP
  (70_reset_and_hazards.md R182, 93_implementation_defined.md U11: stuck). Raised by the cycle of the
  core, `step`. Safe: the spec gives no next state. -/
  | responseUnread
  /-- PHASE = EXEC with no whole frame in RXBUF, a state no run reaches (10_state.md R18: EXEC means
  the whole frame is in RXBUF). Raised by the cycle of the core, `step`. Safe. -/
  | execWithoutFrame
  deriving DecidableEq, Repr

/-- Why the model gives no meaning. -/
inductive Refusal where
  /-- An instruction with no meaning yet, by its mnemonic. Raised by an arm of `exec`; no arm of
  this model raises it. Safe. -/
  | notModelled (mnemonic : String)
  deriving DecidableEq, Repr

/-- The core right after reset (10_state.md R26): both flags 0, PHASE IDLE, no frame and no response
in progress, response stream empty. LUT, K, N1, N2, RC and DIR have no value there; the zeros are the
model's (log entries 1, 2, 3: DESIGN CHOICE). The inputs stand at: nothing sent, reset released, host
reading (log entry 9: DESIGN CHOICE). -/
def State.reset : State where
  lut := Vector.replicate 8 (Vector.replicate 16 0)
  sboxValid := false
  k := Vector.replicate 8 0
  keyValid := false
  n1 := 0
  n2 := 0
  rc := 0
  dir := false
  phase := .idle
  rxbuf := []
  tx := none
  cmd := []
  rsp := []
  rst := false
  rspReady := true
  freeCount := 0

end Sys2Proof.Machine
end

