-- ==== Sys2Proof/Machine/Ops.lean ====
section
/-! DEFINITION. The shared operations: answering a command (success and error), handling frames,
reset, and what the host does at the interface. -/

namespace Sys2Proof.Machine

/-- The outcome of a command or of a step. -/
abbrev Result := Host.Outcome State Fault Refusal

/-- The numeric STATUS codes (30_encoding.md R59, 60_exceptions.md R151). -/
def statusCode : Status → Byte
  | .ok => 0x00
  | .invalidParameters => 0x01
  | .invalidKeyLength => 0x02
  | .invalidBlockSize => 0x03
  | .invalidInputLength => 0x04
  | .bufferTooSmall => 0x05
  | .notConfigured => 0x06
  | .illegalCommand => 0x07

/-- The bytes of a response frame: STATUS, RLEN, RESULT (30_encoding.md R51). -/
def responseBytes (r : Response) : List Byte :=
  statusCode r.status :: BitVec.ofNat 8 r.result.length :: r.result

/-- Put a response in progress: PHASE goes from EXEC to RESP (10_state.md R18). -/
def answer (r : Response) (s : State) : State := { s with tx := some r, phase := .resp }

/-- `raise <Error>` of 00_scope.md section 8 (60_exceptions.md R160): no persistent state changes, the
response is the code with RLEN 0. This is the core's whole exception entry: there is no handler. -/
def raise (e : Status) (s : State) : Result := .next (answer ⟨e, []⟩ s)

/-- `respond OK(p)` of 00_scope.md section 8 (30_encoding.md R60). -/
def respondOk (p : List Byte) (s : State) : Result := .next (answer ⟨.ok, p⟩ s)

/-- The host takes the response bytes: the response stream grows by one frame, no frame is in
progress any more and the core goes to IDLE, after an error as after a success
(60_exceptions.md R160 (c), R161). -/
def deliver (s : State) : State :=
  { s with rsp := s.rsp ++ s.tx.toList, tx := none, rxbuf := [], phase := .idle }

/-- After a command: the response leaves if the host reads, else the core stays in PHASE = RESP
(70_reset_and_hazards.md R182). -/
def handOver (s : State) : State := if s.rspReady then deliver s else s

/-- RECV: take bytes of the command stream into RXBUF in stream order, up to the end of the frame,
whatever the OPCODE (30_encoding.md R54, 10_state.md R18, R19). -/
def receive (s : State) : State :=
  let bytes := s.rxbuf ++ s.cmd
  let n := frameLength bytes
  { s with phase := .recv, rxbuf := bytes.take n, cmd := bytes.drop n }

/-- In PHASE = IDLE no frame is in progress: the next byte is an OPCODE (10_state.md R18). -/
def openFrame (s : State) : State := { s with rxbuf := [] }

/-- Reset is asserted (10_state.md R26, 70_reset_and_hazards.md R175, R177): the reset state, whatever
was in progress. What the host holds at the interface stays: bytes not yet taken, the two inputs
(log entry 11). The numbering of free values goes on (log entry 6). -/
def enterReset (s : State) : State :=
  { State.reset with
    cmd := s.cmd, rst := s.rst, rspReady := s.rspReady, freeCount := s.freeCount }

/-- The host sends command bytes (70_reset_and_hazards.md R187). -/
def hostSend (bytes : List Byte) (s : State) : State := { s with cmd := s.cmd ++ bytes }

/-- The host drives the reset input (70_reset_and_hazards.md R175). -/
def hostReset (asserted : Bool) (s : State) : State := { s with rst := asserted }

/-- The host starts or stops reading responses (70_reset_and_hazards.md R182). -/
def hostReading (reads : Bool) (s : State) : State := { s with rspReady := reads }

/-- The host's next command is this frame: the core stands in IDLE with reset released and the frame
is first in the command stream. -/
def placeFrame (frame : List Byte) (s : State) : State :=
  { s with cmd := frame ++ s.cmd, rxbuf := [], tx := none, phase := .idle, rst := false }

end Sys2Proof.Machine
end

