-- ==== Sys2Proof/Machine/Operands.lean ====
section
/-! DEFINITION. Assembling operands from payload bytes and results into bytes
(20_memory.md R30 to R37, 30_encoding.md R55 to R58). -/

namespace Sys2Proof.Machine

/-- `MemRead(PAYLOAD, i, 1)` (20_memory.md R30). Every rule checks LEN before it reads, so the 0 past
the end is never used (log entry 13). -/
def payloadByte (p : List Byte) (i : Nat) : Byte := p.getD i 0

/-- LE32: the byte at the lowest offset is the least significant (20_memory.md R32). -/
def le32 (b0 b1 b2 b3 : Byte) : Word := b3 ++ b2 ++ b1 ++ b0

/-- BYTES32: the bytes of a word in stream order (20_memory.md R36). -/
def bytes32 (v : Word) : List Byte :=
  [v.extractLsb' 0 8, v.extractLsb' 8 8, v.extractLsb' 16 8, v.extractLsb' 24 8]

/-- The word at payload offsets `i` to `i + 3` (20_memory.md R33, R34). -/
def payloadWord (p : List Byte) (i : Nat) : Word :=
  le32 (payloadByte p i) (payloadByte p (i + 1)) (payloadByte p (i + 2)) (payloadByte p (i + 3))

/-- The key words of a KEY_LOAD payload, words in ascending offset order (20_memory.md R33). -/
def keyWords (p : List Byte) : Keys := Vector.ofFn fun j => payloadWord p (4 * j.val)

/-- The tables of an SBOX_LOAD payload: `LUT[t][x]` is bits 3:0 of byte `16 t + x`
(20_memory.md R37, 40_sbox.md R72). -/
def lutOf (p : List Byte) : Lut :=
  Vector.ofFn fun t => Vector.ofFn fun x => (payloadByte p (16 * t.val + x.val)).extractLsb' 0 4

/-- Bit 7 of the SBOX_LOOKUP operand, reserved (30_encoding.md R56, R63). -/
def lookupReserved (q : Byte) : Bool := q.getLsbD 7

/-- The table index `q[6:4]` of the SBOX_LOOKUP operand (30_encoding.md R56). -/
def lookupTable (q : Byte) : BitVec 3 := q.extractLsb' 4 3

/-- The input nibble `q[3:0]` of the SBOX_LOOKUP operand (30_encoding.md R56). -/
def lookupInput (q : Byte) : Nibble := q.extractLsb' 0 4

/-- `DIR = OPCODE[0]` (30_encoding.md R58). -/
def directionOf (op : Byte) : Bool := op.getLsbD 0

end Sys2Proof.Machine
end

