-- ==== Sys2Proof/Machine/Flags.lean ====
section
/-! DEFINITION. The two valid flags and what they guard. The core has no status flags or condition
codes (10_state.md R21): no command writes one. -/

namespace Sys2Proof.Machine

/-- The configuration check of SBOX_LOOKUP (60_exceptions.md R157). -/
def setLoaded (s : State) : Bool := s.sboxValid

/-- The configuration check of ENCRYPT and DECRYPT: set and key (60_exceptions.md R157). -/
def configured (s : State) : Bool := s.sboxValid && s.keyValid

end Sys2Proof.Machine
end

