-- ==== Sys2Proof/Machine/Key.lean ====
section
/-! DEFINITION. The key registers, KEY_LOAD, and the subkey order (41_key_schedule.md). -/

namespace Sys2Proof.Machine

/-- All eight key words and KEY_VALID, one atomic update (41_key_schedule.md R90). -/
def commitKey (p : List Byte) (s : State) : State := { s with k := keyWords p, keyValid := true }

/-- KEY_LOAD (41_key_schedule.md R90, R99). -/
def execKeyLoad (p : List Byte) (s : State) : Result :=
  if p.length ≠ Config.keyBytes then raise .invalidKeyLength s
  else respondOk [] (commitKey p s)

/-- ENC_IDX, for rounds 1..32 (41_key_schedule.md R94). -/
def encIdx (r : Nat) : Fin 8 :=
  if h : r ≤ 24 then ⟨(r - 1) % 8, Nat.mod_lt _ (by decide)⟩
  else ⟨32 - r, by omega⟩

/-- DEC_IDX, the positional reverse of the encryption order (41_key_schedule.md R95). -/
def decIdx (r : Nat) : Fin 8 := encIdx (33 - r)

/-- SUBKEY (41_key_schedule.md R96): DIR = 0 is `false`. -/
def subkey (k : Keys) (dir : Bool) (r : Nat) : Word :=
  if dir then k[decIdx r] else k[encIdx r]

end Sys2Proof.Machine
end

