-- ==== Sys2Proof/Machine/Sbox.lean ====
section
/-! DEFINITION. The parameter validator, the lookup table array and its two commands (40_sbox.md). -/

namespace Sys2Proof.Machine

/-- IsPerm: each value 0..15 occurs exactly once among the entries (40_sbox.md R70, form (a)); a value
is the whole byte. -/
def isPerm (e : List Byte) : Bool := (List.range 16).all fun v => e.count (BitVec.ofNat 8 v) == 1

/-- Entries `16 t` to `16 t + 15` of a set payload (40_sbox.md R71). -/
def tableBytesOf (p : List Byte) (t : Nat) : List Byte := (p.drop (16 * t)).take 16

/-- ValidSet: every one of the eight tables is a permutation (40_sbox.md R71). -/
def validSet (p : List Byte) : Bool := (List.range 8).all fun t => isPerm (tableBytesOf p t)

/-- S, the lookup function (40_sbox.md R76). -/
def sboxAt (lut : Lut) (t : Fin 8) (x : Nibble) : Nibble := lut[t][x.toNat]

/-- All 128 entries and SBOX_VALID, one atomic update (40_sbox.md R73). -/
def commitSet (p : List Byte) (s : State) : State := { s with lut := lutOf p, sboxValid := true }

/-- SBOX_LOAD (40_sbox.md R72, R74; order of checks 60_exceptions.md R159). -/
def execSboxLoad (p : List Byte) (s : State) : Result :=
  if p.length ≠ Config.setBytes then raise .invalidParameters s
  else if validSet p then respondOk [] (commitSet p s)
  else raise .invalidParameters s

/-- SBOX_LOOKUP (40_sbox.md R77; order of checks 60_exceptions.md R159). -/
def execSboxLookup (p : List Byte) (s : State) : Result :=
  if p.length ≠ Config.lookupBytes then raise .illegalCommand s
  else if lookupReserved (payloadByte p 0) then raise .illegalCommand s
  else if setLoaded s then
    respondOk [(sboxAt s.lut (lookupTable (payloadByte p 0)).toFin
      (lookupInput (payloadByte p 0))).setWidth 8] s
  else raise .notConfigured s

end Sys2Proof.Machine
end

