-- ==== Sys2Proof/Machine/Round.lean ====
section
/-! DEFINITION. The round function datapath (42_round_function.md): pure functions of their operands
and, for SUBST and F, of LUT (R111). -/

namespace Sys2Proof.Machine

/-- ADD32: wraps modulo 2^32, the carry is discarded (42_round_function.md R105). -/
def add32 (a k : Word) : Word := a + k

/-- NIBBLE: bits `4 i + 3` to `4 i` (42_round_function.md R106). -/
def nibbleAt (b : Word) (i : Nat) : Nibble := b.extractLsb' (4 * i) 4

/-- SUBST: nibble `i` through table `i` (42_round_function.md R107). -/
def substNibbles (lut : Lut) (b : Word) : Vector Nibble 8 :=
  Vector.ofFn fun i => sboxAt lut i (nibbleAt b i.val)

/-- JOIN: nibble `i` at bits `4 i + 3` to `4 i` (42_round_function.md R108). -/
def joinNibbles (n : Vector Nibble 8) : Word :=
  n[7] ++ n[6] ++ n[5] ++ n[4] ++ n[3] ++ n[2] ++ n[1] ++ n[0]

/-- `SUB(b) = JOIN(SUBST(b))` (42_round_function.md R108). -/
def subWord (lut : Lut) (b : Word) : Word := joinNibbles (substNibbles lut b)

/-- ROL11: `((v << 11) mod 2^32) + (v >> 21)` (42_round_function.md R109). -/
def rol11 (v : Word) : Word := (v <<< 11) + (v >>> 21)

/-- XOR32 (42_round_function.md R114). -/
def xor32 (a b : Word) : Word := a ^^^ b

/-- F, the round function: add, substitute, rotate (42_round_function.md R110). -/
def roundF (lut : Lut) (a k : Word) : Word := rol11 (subWord lut (add32 a k))

end Sys2Proof.Machine
end

