-- ==== Sys2Proof/Machine/Block.lean ====
section
/-! DEFINITION. The 32-round block transform and its two commands (43_block_transform.md). -/

namespace Sys2Proof.Machine

/-- LOAD_BLOCK (43_block_transform.md R120). -/
def loadBlock (p : List Byte) (s : State) : State :=
  { s with n1 := payloadWord p 0, n2 := payloadWord p 4, rc := 0 }

/-- `tmp` of the round executed at this RC: F of N1 and the subkey of round RC + 1
(43_block_transform.md R121, 41_key_schedule.md R96). -/
def roundOutput (s : State) : Word := roundF s.lut s.n1 (subkey s.k s.dir (s.rc.toNat + 1))

/-- ROUND, rounds 1 to 31: exclusive-or into the second half and exchange
(43_block_transform.md R121). -/
def roundStep (s : State) : State :=
  { s with n1 := xor32 s.n2 (roundOutput s), n2 := s.n1, rc := s.rc + 1 }

/-- LAST_ROUND, round 32: no exchange of halves (43_block_transform.md R122; 90_conflicts.md C1). -/
def lastRound (s : State) : State :=
  { s with n2 := xor32 s.n2 (roundOutput s), rc := s.rc + 1 }

/-- ROUND, `n` times. -/
def runRounds : Nat → State → State
  | 0, s => s
  | n + 1, s => runRounds n (roundStep s)

/-- The sequencer: DIR, LOAD_BLOCK, ROUND for 1..31, LAST_ROUND (43_block_transform.md R123). -/
def transform (dir : Bool) (p : List Byte) (s : State) : State :=
  lastRound (runRounds (Config.rounds - 1) (loadBlock p { s with dir := dir }))

/-- STORE_BLOCK (43_block_transform.md R124). -/
def storeBlock (s : State) : List Byte := bytes32 s.n1 ++ bytes32 s.n2

/-- After the transform N1, N2, RC and DIR hold unspecified values (43_block_transform.md R127,
10_state.md R27): free values (log entry 5). -/
def releaseWork (s : State) : State :=
  { s with
    n1 := Config.freeHalf s.freeCount
    n2 := Config.freeHalf (s.freeCount + 1)
    rc := BitVec.ofNat 6 (Config.freeRounds s.freeCount).val
    dir := Config.freeDir s.freeCount
    freeCount := s.freeCount + 2 }

/-- What ENCRYPT and DECRYPT do, with the direction in bit 0 of the opcode
(43_block_transform.md R125, R126; order of checks 60_exceptions.md R159). -/
def execTransform (op : Byte) (p : List Byte) (s : State) : Result :=
  if p.length ≠ Config.blockBytes then raise .invalidBlockSize s
  else if configured s then
    let done := transform (directionOf op) p s
    respondOk (storeBlock done) (releaseWork done)
  else raise .notConfigured s

/-- ENCRYPT (43_block_transform.md R125). -/
def execEncrypt (p : List Byte) (s : State) : Result := execTransform 0x04 p s

/-- DECRYPT (43_block_transform.md R126). -/
def execDecrypt (p : List Byte) (s : State) : Result := execTransform 0x05 p s

end Sys2Proof.Machine
end

