-- ==== Sys2Proof/Machine/Reserved.lean ====
section
/-! DEFINITION. The reserved opcodes (30_encoding.md R61): whatever LEN and payload, the answer is
IllegalCommand and no state changes. One definition per row of the opcode table. -/

namespace Sys2Proof.Machine

/-- Opcode 0x00. -/
def execReserved00 (_payload : List Byte) (s : State) : Result := raise .illegalCommand s

/-- Opcodes 0x06..0x07. -/
def execReserved06 (_low : BitVec 1) (_payload : List Byte) (s : State) : Result :=
  raise .illegalCommand s

/-- Opcodes 0x08..0x0F. -/
def execReserved08 (_low : BitVec 3) (_payload : List Byte) (s : State) : Result :=
  raise .illegalCommand s

/-- Opcodes 0x10..0x1F. -/
def execReserved10 (_low : BitVec 4) (_payload : List Byte) (s : State) : Result :=
  raise .illegalCommand s

/-- Opcodes 0x20..0x3F. -/
def execReserved20 (_low : BitVec 5) (_payload : List Byte) (s : State) : Result :=
  raise .illegalCommand s

/-- Opcodes 0x40..0x7F. -/
def execReserved40 (_low : BitVec 6) (_payload : List Byte) (s : State) : Result :=
  raise .illegalCommand s

/-- Opcodes 0x80..0xFF. -/
def execReserved80 (_low : BitVec 7) (_payload : List Byte) (s : State) : Result :=
  raise .illegalCommand s

end Sys2Proof.Machine
end

