-- ==== Sys2Proof/Machine/Dispatch.lean ====
section
/-! DEFINITION. The command's rule for each command (30_encoding.md R52, R61). -/

namespace Sys2Proof.Machine

def exec (i : Instr) (s : State) : Host.Outcome State Fault Refusal :=
  match i with
  | .sboxLoad p => Sys2Proof.Machine.execSboxLoad p s
  | .sboxLookup p => Sys2Proof.Machine.execSboxLookup p s
  | .keyLoad p => Sys2Proof.Machine.execKeyLoad p s
  | .encrypt p => Sys2Proof.Machine.execEncrypt p s
  | .decrypt p => Sys2Proof.Machine.execDecrypt p s
  | .reserved00 p => Sys2Proof.Machine.execReserved00 p s
  | .reserved06 low p => Sys2Proof.Machine.execReserved06 low p s
  | .reserved08 low p => Sys2Proof.Machine.execReserved08 low p s
  | .reserved10 low p => Sys2Proof.Machine.execReserved10 low p s
  | .reserved20 low p => Sys2Proof.Machine.execReserved20 low p s
  | .reserved40 low p => Sys2Proof.Machine.execReserved40 low p s
  | .reserved80 low p => Sys2Proof.Machine.execReserved80 low p s

end Sys2Proof.Machine
end

