-- ==== Sys2Proof/Machine/Cycle.lean ====
section
/-! DEFINITION. One cycle of the core: the handling of one whole frame (00_scope.md R6,
10_state.md R18), with reset and the two ways the core can be made to wait. -/

namespace Sys2Proof.Machine

/-- PHASE = EXEC: apply the rule of the command in RXBUF, then hand the response to the host. -/
def runFrame (s : State) : Result :=
  match decode s.rxbuf with
  | .error _ => .fault .execWithoutFrame
  | .ok (i, _) =>
    match exec i s with
    | .next s' => .next (handOver s')
    | .fault f => .fault f
    | .refused r => .refused r

/-- Take what the host has sent of the frame; when it is whole apply its rule, else wait in RECV
(30_encoding.md R54, 70_reset_and_hazards.md R181). -/
def takeFrame (s : State) : Result :=
  let s' := receive s
  if frameWhole s'.rxbuf then runFrame { s' with phase := .exec }
  else .next s'

/-- One step of the core. -/
def cycle (s : State) : Result :=
  if s.rst then .next (enterReset s)
  else
    match s.phase with
    | .idle => if s.cmd.isEmpty then .next s else takeFrame (openFrame s)
    | .recv => if s.cmd.isEmpty then .fault .frameIncomplete else takeFrame s
    | .exec => runFrame s
    | .resp => if s.rspReady then .next (deliver s) else .fault .responseUnread

end Sys2Proof.Machine
end

