-- ==== Sys2Proof/Machine/Step.lean ====
section
/-! DEFINITION. The step of the machine, and the placing of a frame where it takes its next command. -/

namespace Sys2Proof.Machine

/-- One step: one whole command (00_scope.md R6). -/
def step (s : State) : Host.Outcome State Fault Refusal := cycle s

/-- `s` with the frame of an instruction word of the opcode table first in the command stream. -/
def State.withFetchWord (s : State) (nbits w : Nat) : State := placeFrame (tableFrame nbits w) s

end Sys2Proof.Machine
end

