-- ==== Sys2Proof/Machine/Alternative.lean ====
section
/-! DEFINITION. The two equivalent forms the spec gives: the packed tables (40_sbox.md R78) and the
transform without exchanges (43_block_transform.md R131). No command uses them: hidden state is left
out (10_state.md R23). -/

namespace Sys2Proof.Machine

/-- PACK: table `2 i` serves the low nibble of byte `i`, table `2 i + 1` the high nibble
(40_sbox.md R78). -/
def packLut (lut : Lut) : Vector (Vector Byte 256) 4 :=
  Vector.ofFn fun i => Vector.ofFn fun y =>
    sboxAt lut ⟨2 * i.val + 1, by omega⟩ ((BitVec.ofNat 8 y.val).extractLsb' 4 4)
      ++ sboxAt lut ⟨2 * i.val, by omega⟩ ((BitVec.ofNat 8 y.val).extractLsb' 0 4)

/-- One packed lookup of byte `i` of a word. -/
def packedByte (p : Vector (Vector Byte 256) 4) (i : Fin 4) (b : Word) : Byte :=
  p[i][(b.extractLsb' (8 * i.val) 8).toNat]'(BitVec.isLt _)

/-- The substituted word by the packed tables (40_sbox.md R78). -/
def subPacked (p : Vector (Vector Byte 256) 4) (b : Word) : Word :=
  packedByte p 3 b ++ packedByte p 2 b ++ packedByte p 1 b ++ packedByte p 0 b

/-- Rounds `2 m + 1` and `2 m + 2` without an exchange, for `m` from `done` on
(43_block_transform.md R131). -/
def pairRounds (lut : Lut) (k : Keys) (dir : Bool) : Nat → Nat → Word × Word → Word × Word
  | 0, _, ab => ab
  | n + 1, m, (a, b) =>
    let b' := xor32 b (roundF lut a (subkey k dir (2 * m + 1)))
    let a' := xor32 a (roundF lut b' (subkey k dir (2 * m + 2)))
    pairRounds lut k dir n (m + 1) (a', b')

/-- The transform by two registers that never move: the result is `bytes32(b) ++ bytes32(a)`
(43_block_transform.md R131). -/
def exchangeFree (lut : Lut) (k : Keys) (dir : Bool) (p : List Byte) : List Byte :=
  let ab := pairRounds lut k dir 16 0 (payloadWord p 0, payloadWord p 4)
  bytes32 ab.2 ++ bytes32 ab.1

end Sys2Proof.Machine
end

