-- ==== Sys2Proof/Machine/EcbHost.lean ====
section
/-! DEFINITION. The host's ECB sequence over the core (44_ecb_host_sequence.md) and its
pseudo-instructions (30_encoding.md R66). Host software, not hardware: functions over the step. -/

namespace Sys2Proof.Machine

/-- CIPHER_INIT: the frames of SBOX_LOAD and KEY_LOAD (30_encoding.md R66). -/
def cipherInit (set key : List Byte) : List Byte :=
  encode (.sboxLoad set) ++ encode (.keyLoad key)

/-- The command for one block; the direction is fixed for a whole call
(44_ecb_host_sequence.md R141, R148). -/
def blockCommand (dir : Bool) (block : List Byte) : Instr :=
  if dir then .decrypt block else .encrypt block

/-- Send one frame, let the core take a step, and read the one response it gives
(20_memory.md R43: one response per command). None where the step gives no single response. The
response is that of this frame on a core between commands, to which the ECB sequence is meant to be
applied (Safety.Ready); on any other core it may answer an earlier frame. The spec is silent on a call
there (DESIGN CHOICE, log entry 21). -/
def exchange (i : Instr) (s : State) : Option (Response × State) :=
  match cycle (hostSend (encode i) s) with
  | .next s' =>
    match s'.rsp.drop s.rsp.length with
    | [r] => some (r, s')
    | _ => none
  | _ => none

/-- One frame per block in ascending order (44_ecb_host_sequence.md R144, R148); the first status
other than OK ends the sequence. The results are collected, not yet written. -/
def ecbBlocks (dir : Bool) : List (List Byte) → State → Option (Status × List Byte × State)
  | [], s => some (.ok, [], s)
  | block :: blocks, s =>
    match exchange (blockCommand dir block) s with
    | none => none
    | some (r, s') =>
      if r.status = .ok then
        (ecbBlocks dir blocks s').map fun (e, out, t) => (e, r.result ++ out, t)
      else some (r.status, [], s')

/-- `src[8i .. 8i+7]` for i = 0, 1, ..., n - 1 (44_ecb_host_sequence.md R144). -/
def blocksOf (src : List Byte) : List (List Byte) :=
  (List.range (src.length / Config.blockBytes)).map fun i =>
    (src.drop (Config.blockBytes * i)).take Config.blockBytes

/-- CryptBlocks (44_ecb_host_sequence.md R142, R143, R144, R148): the status of the call, the
destination buffer after it, and the core after it. Both checks come before any frame is sent; a
failed call leaves the destination as it was (log entry 15). For a core between commands: log entry
21. -/
def cryptBlocks (dir : Bool) (dst src : List Byte) (s : State) :
    Option (Status × List Byte × State) :=
  if src.length % Config.blockBytes ≠ 0 then some (.invalidInputLength, dst, s)
  else if dst.length < src.length then some (.bufferTooSmall, dst, s)
  else
    (ecbBlocks dir (blocksOf src) s).map fun (e, out, t) =>
      if e = .ok then (e, out ++ dst.drop src.length, t) else (e, dst, t)

end Sys2Proof.Machine
end

