-- ==== Sys2Proof/Safety.lean ====
section
/-! DEFINITION. What counts as a good state and a good answer, in the terms the statements use. -/

namespace Sys2Proof.Safety

open Sys2Proof.Machine

/-- The entries of a payload's table `t` meet 40_sbox.md R70 in its form (b): every entry is at most
15 and no two are equal. -/
abbrev TableOk (p : List Byte) (t : Nat) : Prop :=
  (∀ x : Fin 16, (p.getD (16 * t + x.val) 0).toNat ≤ 15) ∧
  ∀ x y : Fin 16, p.getD (16 * t + x.val) 0 = p.getD (16 * t + y.val) 0 → x = y

/-- A payload is a valid set (40_sbox.md R71): 128 bytes, every table a permutation. -/
abbrev SetOk (p : List Byte) : Prop := p.length = 128 ∧ ∀ t : Fin 8, TableOk p t.val

/-- Every table of the array is a permutation: its sixteen entries are pairwise different
(10_state.md R24). -/
abbrev Permutations (lut : Lut) : Prop :=
  ∀ (t : Fin 8) (x y : Fin 16), lut[t][x] = lut[t][y] → x = y

/-- The response frames the core can emit (30_encoding.md R60, R62). -/
def CoreResponse (r : Response) : Prop :=
  match r.status with
  | .ok => r.result = [] ∨ (∃ y : Nibble, r.result = [y.setWidth 8]) ∨ r.result.length = 8
  | .invalidParameters => r.result = []
  | .invalidKeyLength => r.result = []
  | .invalidBlockSize => r.result = []
  | .invalidInputLength => False
  | .bufferTooSmall => False
  | .notConfigured => r.result = []
  | .illegalCommand => r.result = []

/-- PHASE agrees with RXBUF and the response in progress (10_state.md R18, R19). -/
def PhaseConsistent (s : State) : Prop :=
  match s.phase with
  | .idle => s.rxbuf = [] ∧ s.tx = none
  | .recv => s.rxbuf ≠ [] ∧ s.rxbuf.length < frameLength s.rxbuf ∧ s.tx = none
  | .exec => s.rxbuf.length = frameLength s.rxbuf ∧ s.tx = none
  | .resp => s.rxbuf.length = frameLength s.rxbuf ∧ ∃ r, s.tx = some r ∧ CoreResponse r

/-- The invariant of the core. -/
structure Inv (s : State) : Prop where
  /-- 10_state.md R24. -/
  tables : s.sboxValid = true → Permutations s.lut
  /-- 10_state.md R16: RC takes the values 0 to 32. -/
  rounds : s.rc.toNat ≤ 32
  /-- 10_state.md R18, R19. -/
  framing : PhaseConsistent s
  /-- 10_state.md R19: the capacity of RXBUF. -/
  capacity : s.rxbuf.length ≤ 257
  /-- 30_encoding.md R60, R62: only these responses ever leave the core. -/
  responses : ∀ r ∈ s.rsp, CoreResponse r

/-- The persistent state (10_state.md R10): what a later command can depend on. -/
def persistent (s : State) : Lut × Bool × Keys × Bool := (s.lut, s.sboxValid, s.k, s.keyValid)

/-- The two states differ at most in the response in progress and PHASE. -/
def AnsweredOnly (s t : State) : Prop := t = { s with tx := t.tx, phase := t.phase }

/-- The two states differ at most in the transient work registers N1, N2, RC, DIR (with the numbering
of free values), the response in progress and PHASE (43_block_transform.md R127). -/
def WorkOnly (s t : State) : Prop :=
  t = { s with n1 := t.n1, n2 := t.n2, rc := t.rc, dir := t.dir, freeCount := t.freeCount,
               tx := t.tx, phase := t.phase }

/-- The two states agree on everything that has a value (10_state.md R27): LUT counts only while
SBOX_VALID = 1, K only while KEY_VALID = 1, and N1, N2, RC, DIR not at all between commands. -/
structure Agree (s t : State) : Prop where
  sboxValid : s.sboxValid = t.sboxValid
  lut : s.sboxValid = true → s.lut = t.lut
  keyValid : s.keyValid = t.keyValid
  k : s.keyValid = true → s.k = t.k
  phase : s.phase = t.phase
  rxbuf : s.rxbuf = t.rxbuf
  tx : s.tx = t.tx
  cmd : s.cmd = t.cmd
  rsp : s.rsp = t.rsp
  rst : s.rst = t.rst
  rspReady : s.rspReady = t.rspReady

/-- The outcome of a command is a next state that answers `r` and meets `P`. -/
def Answers (o : Result) (r : Response) (P : State → Prop) : Prop :=
  ∃ t, o = .next t ∧ t.tx = some r ∧ t.phase = .resp ∧ P t

/-- The first failing check of a frame (60_exceptions.md R159), from its OPCODE, its payload and the
two flags; OK where none fails. -/
def firstFailing (op : Byte) (p : List Byte) (sboxValid keyValid : Bool) : Status :=
  if op.toNat = 1 then
    if p.length = 128 then
      if ∀ t : Fin 8, TableOk p t.val then .ok else .invalidParameters
    else .invalidParameters
  else if op.toNat = 2 then
    if p.length = 1 then
      if 128 ≤ (p.getD 0 0).toNat then .illegalCommand
      else if sboxValid then .ok else .notConfigured
    else .illegalCommand
  else if op.toNat = 3 then
    if p.length = 32 then .ok else .invalidKeyLength
  else if op.toNat = 4 ∨ op.toNat = 5 then
    if p.length = 8 then
      if sboxValid ∧ keyValid then .ok else .notConfigured
    else .invalidBlockSize
  else .illegalCommand

/-- `A r` and `B r` are N1 and N2 after round `r` of a transform of the payload's block
(43_block_transform.md R120 to R123): the halves are loaded little-endian, rounds 1 to 31 exchange
them, round 32 does not. -/
structure RoundSequence (lut : Lut) (k : Keys) (dir : Bool) (p : List Byte) (A B : Nat → Word) :
    Prop where
  loadA : (A 0).toNat = (p.getD 0 0).toNat + 2 ^ 8 * (p.getD 1 0).toNat
    + 2 ^ 16 * (p.getD 2 0).toNat + 2 ^ 24 * (p.getD 3 0).toNat
  loadB : (B 0).toNat = (p.getD 4 0).toNat + 2 ^ 8 * (p.getD 5 0).toNat
    + 2 ^ 16 * (p.getD 6 0).toNat + 2 ^ 24 * (p.getD 7 0).toNat
  roundA : ∀ r, 1 ≤ r → r ≤ 31 → A r = B (r - 1) ^^^ roundF lut (A (r - 1)) (subkey k dir r)
  roundB : ∀ r, 1 ≤ r → r ≤ 31 → B r = A (r - 1)
  lastA : A 32 = A 31
  lastB : B 32 = B 31 ^^^ roundF lut (A 31) (subkey k dir 32)

/-- The machine after a list of commands, each applied whole to the state the one before it left, its
response delivered (20_memory.md R43: the fold of the command rules). -/
def afterCommands : List Instr → State → State
  | [], s => s
  | i :: is, s =>
    match exec i s with
    | .next t => afterCommands is (deliver t)
    | .fault _ => s
    | .refused _ => s

/-- The core is between commands, reset is released and the host reads: the conditions under which a
whole frame is answered (70_reset_and_hazards.md R185). -/
structure Ready (s : State) : Prop where
  released : s.rst = false
  idle : s.phase = .idle
  noFrame : s.rxbuf = []
  noResponse : s.tx = none
  nothingSent : s.cmd = []
  reading : s.rspReady = true

end Sys2Proof.Safety
end

