-- ==== Sys2Proof/Certificates/Slice0/Obligations.lean ====
section
/-! DEFINITION. The statements for the provers, from the numbered rules of spec/. -/

open Sys2Proof Sys2Proof.Machine Sys2Proof.Safety

/-! ### The datapath -/

/-- 42_round_function.md R105: addition modulo 2^32, commutative, 0 neutral, a bijection in the first
operand. -/
def Obligations.AddWrapsModuloWord : Prop :=
  ∀ a k : Word,
    (add32 a k).toNat = (a.toNat + k.toNat) % 2 ^ 32 ∧
    add32 a k = add32 k a ∧ add32 a 0 = a ∧ Function.Bijective (fun x => add32 x k)

/-- 42_round_function.md R106: nibble `i` is bits `4i+3 : 4i`, and the eight nibbles partition the
word. -/
def Obligations.NibblesPartitionTheWord : Prop :=
  ∀ b : Word,
    (∀ i : Fin 8, (nibbleAt b i.val).toNat = b.toNat / 16 ^ i.val % 16) ∧
    b.toNat = ∑ i : Fin 8, (nibbleAt b i.val).toNat * 16 ^ i.val

/-- 42_round_function.md R107: the output nibble at position `i` is table `i` at the input nibble of
position `i`, and depends on nothing else of the word. -/
def Obligations.EachNibbleGoesThroughItsTable : Prop :=
  ∀ (lut : Lut) (b : Word) (i : Fin 8),
    (∀ x : Fin 16, b.toNat / 16 ^ i.val % 16 = x.val → (substNibbles lut b)[i] = lut[i][x]) ∧
    ∀ c : Word, nibbleAt b i.val = nibbleAt c i.val →
      (substNibbles lut b)[i] = (substNibbles lut c)[i]

/-- 42_round_function.md R108: JOIN places nibble `i` at bits `4i+3 : 4i`, it inverts the split, and
SUB is a bijection for a valid set. -/
def Obligations.JoinKeepsPositions : Prop :=
  (∀ n : Vector Nibble 8,
    (joinNibbles n).toNat = ∑ i : Fin 8, n[i].toNat * 16 ^ i.val ∧
    ∀ i : Fin 8, nibbleAt (joinNibbles n) i.val = n[i]) ∧
  (∀ b : Word, joinNibbles (Vector.ofFn fun i => nibbleAt b i.val) = b) ∧
  ∀ lut : Lut, Permutations lut → Function.Bijective (subWord lut)

/-- 42_round_function.md R109: bit `i` moves to bit `(i + 11) mod 32`; the rotation is a bijection,
undone by a rotation right by 11 or left by 21. -/
def Obligations.RotationIsCircular : Prop :=
  (∀ v : Word,
    (rol11 v).toNat = v.toNat * 2 ^ 11 % 2 ^ 32 + v.toNat / 2 ^ 21 ∧
    (∀ i, i < 32 → (rol11 v).getLsbD ((i + 11) % 32) = v.getLsbD i) ∧
    (rol11 v).rotateRight 11 = v ∧ (rol11 v).rotateLeft 21 = v) ∧
  Function.Bijective rol11

/-- 42_round_function.md R110: F adds, then substitutes, then rotates: bit `j` of the entry that
table `i` gives for nibble `i` of the sum stands at bit `4i + j + 11` (modulo 32). F is symmetric, and
for a valid set a bijection in its first operand. -/
def Obligations.RoundFunctionBits : Prop :=
  ∀ (lut : Lut) (k : Word),
    (∀ (a : Word) (i : Fin 8) (x : Fin 16) (j : Nat),
      (a.toNat + k.toNat) % 2 ^ 32 / 16 ^ i.val % 16 = x.val → j < 4 →
      (roundF lut a k).getLsbD ((4 * i.val + j + 11) % 32) = lut[i][x].getLsbD j) ∧
    (∀ a : Word, roundF lut a k = roundF lut k a) ∧
    (Permutations lut → Function.Bijective (fun a => roundF lut a k))

/-- 20_memory.md R32, R33, R34, R36, 43_block_transform.md R124: a word is assembled with the byte at
the lowest offset least significant, in the 32 bytes of the key (words ascending) and in both halves of
the 8 bytes of the block (N1 from bytes 0 to 3); BYTES32 undoes LE32 both ways; and the response to
ENCRYPT and DECRYPT is BYTES32 of N1 and then of N2 as round 32 leaves them. -/
def Obligations.WordsAreLittleEndian : Prop :=
  (∀ b0 b1 b2 b3 : Byte,
    (le32 b0 b1 b2 b3).toNat =
      b0.toNat + 2 ^ 8 * b1.toNat + 2 ^ 16 * b2.toNat + 2 ^ 24 * b3.toNat ∧
    bytes32 (le32 b0 b1 b2 b3) = [b0, b1, b2, b3]) ∧
  (∀ v : Word, payloadWord (bytes32 v) 0 = v) ∧
  (∀ p : List Byte, p.length = 32 → ∀ j : Fin 8,
    (keyWords p)[j] = le32 (p.getD (4 * j.val) 0) (p.getD (4 * j.val + 1) 0)
      (p.getD (4 * j.val + 2) 0) (p.getD (4 * j.val + 3) 0)) ∧
  (∀ (p : List Byte) (s : State), p.length = 8 →
    (loadBlock p s).n1 = le32 (p.getD 0 0) (p.getD 1 0) (p.getD 2 0) (p.getD 3 0) ∧
    (loadBlock p s).n2 = le32 (p.getD 4 0) (p.getD 5 0) (p.getD 6 0) (p.getD 7 0)) ∧
  (∀ s : State, storeBlock s = bytes32 s.n1 ++ bytes32 s.n2) ∧
  ∀ (dir : Bool) (p : List Byte) (s : State), p.length = 8 → s.sboxValid = true →
    s.keyValid = true →
    Answers (exec (if dir then .decrypt p else .encrypt p) s)
      ⟨.ok, bytes32 (transform dir p s).n1 ++ bytes32 (transform dir p s).n2⟩ (WorkOnly s)

/-! ### The key schedule -/

/-- 41_key_schedule.md R94: `k0..k7` three times forward, then once in reverse. -/
def Obligations.EncryptionSubkeyOrder : Prop :=
  ∀ (k : Keys) (r : Nat), 1 ≤ r → r ≤ 32 →
    (r ≤ 24 → (encIdx r).val = (r - 1) % 8) ∧ (25 ≤ r → (encIdx r).val = 32 - r) ∧
    subkey k false r = k[encIdx r]

/-- 41_key_schedule.md R95, R97: the decryption order is the positional reverse of the encryption
order, with the closed form of R95, and each key word is used four times in either direction. -/
def Obligations.DecryptionSubkeyOrder : Prop :=
  ∀ k : Keys,
    (∀ r, 1 ≤ r → r ≤ 32 →
      subkey k true r = subkey k false (33 - r) ∧
      (r ≤ 8 → subkey k true r = k[Fin.ofNat 8 (r - 1)]) ∧
      (9 ≤ r → subkey k true r = k[Fin.ofNat 8 (7 - (r - 1) % 8)])) ∧
    ∀ j : Fin 8,
      ((List.range 32).countP fun r => encIdx (r + 1) = j) = 4 ∧
      ((List.range 32).countP fun r => decIdx (r + 1) = j) = 4

/-! ### The commands -/

/-- 40_sbox.md R70: the three forms of the permutation check are one. -/
def Obligations.PermutationCheckForms : Prop :=
  ∀ e : List Byte, e.length = 16 →
    (isPerm e = true ↔ ∀ v, v < 16 → (e.countP fun b => b.toNat = v) = 1) ∧
    (isPerm e = true ↔ (∀ b ∈ e, b.toNat ≤ 15) ∧ e.Nodup) ∧
    (isPerm e = true ↔ ∀ v, v < 16 → ∃! i : Fin 16, (e.getD i.val 0).toNat = v)

/-- 40_sbox.md R72, R74: SBOX_LOAD commits a valid set of 128 bytes, all entries and SBOX_VALID, and
answers OK; on any other payload it answers InvalidParameters and changes nothing. -/
def Obligations.SboxLoadCommitsOrRejects : Prop :=
  ∀ (p : List Byte) (s : State), opcodeOf (.sboxLoad p) = 0x01 ∧
    (SetOk p → ∃ u, exec (.sboxLoad p) s = .next u ∧
      u = { s with lut := u.lut, sboxValid := true, tx := some ⟨.ok, []⟩, phase := .resp } ∧
      ∀ (t : Fin 8) (x : Fin 16),
        u.lut[t][x].toNat = (p.getD (16 * t.val + x.val) 0).toNat) ∧
    (¬ SetOk p → exec (.sboxLoad p) s =
      .next { s with tx := some ⟨.invalidParameters, []⟩, phase := .resp })

/-- 40_sbox.md R77: SBOX_LOOKUP answers the entry of table `q[6:4]` at input `q[3:0]`, zero-extended,
and writes nothing; a wrong LEN or the reserved bit gives IllegalCommand, before a missing set gives
NotConfigured. -/
def Obligations.LookupAnswersTheEntry : Prop :=
  ∀ (p : List Byte) (s : State), opcodeOf (.sboxLookup p) = 0x02 ∧
    ((p.length ≠ 1 ∨ 128 ≤ (p.getD 0 0).toNat) → exec (.sboxLookup p) s =
      .next { s with tx := some ⟨.illegalCommand, []⟩, phase := .resp }) ∧
    (p.length = 1 → (p.getD 0 0).toNat < 128 → s.sboxValid = false → exec (.sboxLookup p) s =
      .next { s with tx := some ⟨.notConfigured, []⟩, phase := .resp }) ∧
    ∀ (t : Fin 8) (x : Fin 16), p.length = 1 → (p.getD 0 0).toNat = 16 * t.val + x.val →
      s.sboxValid = true → exec (.sboxLookup p) s =
        .next { s with tx := some ⟨.ok, [BitVec.ofNat 8 s.lut[t][x].toNat]⟩, phase := .resp }

/-- 40_sbox.md R72 with R77 (96_derived_vectors.md 3.2): after a successful SBOX_LOAD, a lookup of `q`
below 0x80 answers payload byte `q`, with or without a key, until LUT is written again. -/
def Obligations.LookupReadsTheLoadedSet : Prop :=
  ∀ (p : List Byte) (q : Byte) (s : State), SetOk p → q.toNat < 128 →
    ∃ u, exec (.sboxLoad p) s = .next u ∧
      ∀ v : State, v.lut = u.lut → v.sboxValid = u.sboxValid →
        Answers (exec (.sboxLookup [q]) v) ⟨.ok, [p.getD q.toNat 0]⟩
          fun w => w = { v with tx := w.tx, phase := w.phase }

/-- 41_key_schedule.md R90, R99: KEY_LOAD takes 32 bytes, whatever they are, as eight little-endian
words in ascending order; any other length answers InvalidKeyLength and changes nothing. -/
def Obligations.KeyLoadCommitsOrRejects : Prop :=
  ∀ (p : List Byte) (s : State), opcodeOf (.keyLoad p) = 0x03 ∧
    (p.length = 32 → ∃ u, exec (.keyLoad p) s = .next u ∧
      u = { s with k := u.k, keyValid := true, tx := some ⟨.ok, []⟩, phase := .resp } ∧
      ∀ j : Fin 8, u.k[j].toNat =
        (p.getD (4 * j.val) 0).toNat + 2 ^ 8 * (p.getD (4 * j.val + 1) 0).toNat
          + 2 ^ 16 * (p.getD (4 * j.val + 2) 0).toNat
          + 2 ^ 24 * (p.getD (4 * j.val + 3) 0).toNat) ∧
    (p.length ≠ 32 → exec (.keyLoad p) s =
      .next { s with tx := some ⟨.invalidKeyLength, []⟩, phase := .resp })

/-- 43_block_transform.md R120 to R126: with set and key loaded, ENCRYPT (`dir = false`) and DECRYPT
(`dir = true`) of 8 bytes answer the halves after round 32 of the one round sequence of the block, in
BYTES32 order, N1 first; only the work registers are written. A wrong length answers InvalidBlockSize,
before a missing set or key answers NotConfigured. -/
def Obligations.TransformRunsThirtyTwoRounds : Prop :=
  ∀ (dir : Bool) (p : List Byte) (s : State),
    opcodeOf (if dir then .decrypt p else .encrypt p) = (if dir then 0x05 else 0x04) ∧
    (p.length ≠ 8 → exec (if dir then .decrypt p else .encrypt p) s =
      .next { s with tx := some ⟨.invalidBlockSize, []⟩, phase := .resp }) ∧
    (p.length = 8 → ¬ (s.sboxValid = true ∧ s.keyValid = true) →
      exec (if dir then .decrypt p else .encrypt p) s =
        .next { s with tx := some ⟨.notConfigured, []⟩, phase := .resp }) ∧
    (p.length = 8 → s.sboxValid = true → s.keyValid = true →
      (∃ A B, RoundSequence s.lut s.k dir p A B) ∧
      ∀ A B : Nat → Word, RoundSequence s.lut s.k dir p A B →
        Answers (exec (if dir then .decrypt p else .encrypt p) s)
          ⟨.ok, ((List.range 4).map fun i => BitVec.ofNat 8 ((A 32).toNat / 256 ^ i)) ++
            ((List.range 4).map fun i => BitVec.ofNat 8 ((B 32).toNat / 256 ^ i))⟩
          (WorkOnly s))

/-- 10_state.md R16: RC counts the rounds done, from 0 after the block is loaded to 32 at the end, and
so never wraps. -/
def Obligations.RoundCounterCountsTheRounds : Prop :=
  ∀ (dir : Bool) (p : List Byte) (s : State),
    (∀ n, n ≤ 31 → (runRounds n (loadBlock p s)).rc.toNat = n) ∧ (transform dir p s).rc.toNat = 32

/-- 30_encoding.md R61: every reserved opcode, with every payload and in every state, answers
IllegalCommand and writes nothing; and in the stream its frame is consumed whole. -/
def Obligations.ReservedOpcodesAreIllegal : Prop :=
  (∀ (p : List Byte) (s : State),
    let t : Result := .next { s with tx := some ⟨.illegalCommand, []⟩, phase := .resp }
    exec (.reserved00 p) s = t ∧ (∀ low, exec (.reserved06 low p) s = t) ∧
    (∀ low, exec (.reserved08 low p) s = t) ∧ (∀ low, exec (.reserved10 low p) s = t) ∧
    (∀ low, exec (.reserved20 low p) s = t) ∧ (∀ low, exec (.reserved40 low p) s = t) ∧
    (∀ low, exec (.reserved80 low p) s = t)) ∧
  ∀ (op len : Byte) (p rest : List Byte) (s : State), op.toNat = 0 ∨ 6 ≤ op.toNat →
    Ready s → p.length = len.toNat →
    step (hostSend (op :: len :: p ++ rest) s) =
      .next { s with cmd := rest, rsp := s.rsp ++ [⟨.illegalCommand, []⟩] }

/-- 60_exceptions.md R159: the status of every command is that of its first failing check: opcode,
LEN, operand format, configuration. -/
def Obligations.ChecksAreMadeInOrder : Prop :=
  ∀ (i : Instr) (s : State), ∃ u r, exec i s = .next u ∧ u.tx = some r ∧
    r.status = firstFailing (opcodeOf i) i.payload s.sboxValid s.keyValid

/-- 60_exceptions.md R160: a command that answers an error changes nothing but the response in
progress, the response has no result bytes, and when it has been read the core is in IDLE with the
persistent state it had. -/
def Obligations.ErrorsChangeNothing : Prop :=
  ∀ (i : Instr) (s u : State) (r : Response),
    exec i s = .next u → u.tx = some r → r.status ≠ .ok →
      responseBytes r = [statusCode r.status, 0] ∧ AnsweredOnly s u ∧ u.phase = .resp ∧
      (s.rst = false → s.rspReady = true →
        step u = .next { s with rsp := s.rsp ++ [r], tx := none, rxbuf := [], phase := .idle })

/-- 30_encoding.md R62, R60: the response frames the core can emit, and which command emits
results. -/
def Obligations.ResponsesHaveTheListedShapes : Prop :=
  ∀ (i : Instr) (s : State), ∃ u r, exec i s = .next u ∧ u.tx = some r ∧
    (responseBytes r = [0x00, 0x00] ∨ (∃ y : Nibble, responseBytes r = [0x00, 0x01, y.setWidth 8]) ∨
      (∃ b, b.length = 8 ∧ responseBytes r = 0x00 :: 0x08 :: b) ∨
      responseBytes r ∈ [[0x01, 0x00], [0x02, 0x00], [0x03, 0x00], [0x06, 0x00], [0x07, 0x00]]) ∧
    (r.status = .ok → ∀ p,
      (i = .sboxLoad p → r.result = []) ∧ (i = .keyLoad p → r.result = []) ∧
      (i = .sboxLookup p → r.result.length = 1) ∧
      (i = .encrypt p → r.result.length = 8) ∧ (i = .decrypt p → r.result.length = 8))

/-- 10_state.md R25, 43_block_transform.md R127: what each command may write, on success and on
error. SBOX_LOAD: LUT and SBOX_VALID. KEY_LOAD: K and KEY_VALID. ENCRYPT and DECRYPT: the work
registers. SBOX_LOOKUP and the reserved opcodes: nothing. (Beside PHASE and the response.) -/
def Obligations.CommandFrames : Prop :=
  ∀ (i : Instr) (s u : State), exec i s = .next u →
    match i with
    | .sboxLoad _ =>
      u = { s with lut := u.lut, sboxValid := u.sboxValid, tx := u.tx, phase := u.phase }
    | .keyLoad _ => u = { s with k := u.k, keyValid := u.keyValid, tx := u.tx, phase := u.phase }
    | .encrypt _ => WorkOnly s u
    | .decrypt _ => WorkOnly s u
    | .sboxLookup _ => AnsweredOnly s u
    | .reserved00 _ => AnsweredOnly s u
    | .reserved06 _ _ => AnsweredOnly s u
    | .reserved08 _ _ => AnsweredOnly s u
    | .reserved10 _ _ => AnsweredOnly s u
    | .reserved20 _ _ => AnsweredOnly s u
    | .reserved40 _ _ => AnsweredOnly s u
    | .reserved80 _ _ => AnsweredOnly s u

/-- 41_key_schedule.md R93: no command outputs anything of K but ENCRYPT and DECRYPT: replacing the
key words changes no other command's answer. -/
def Obligations.KeyReachesOnlyTransformResults : Prop :=
  ∀ (i : Instr) (s : State) (k' : Keys), (∀ p, i ≠ .encrypt p ∧ i ≠ .decrypt p) →
    ∃ u v, exec i s = .next u ∧ exec i { s with k := k' } = .next v ∧ u.tx = v.tx ∧
      (v = { u with k := k' } ∨ v = u)

/-- 70_reset_and_hazards.md R179: SBOX_LOAD and KEY_LOAD may come in either order. -/
def Obligations.LoadsCommute : Prop :=
  ∀ (set key : List Byte) (s : State), SetOk set → key.length = 32 →
    persistent (afterCommands [.sboxLoad set, .keyLoad key] s) =
      persistent (afterCommands [.keyLoad key, .sboxLoad set] s) ∧
    configured (afterCommands [.sboxLoad set, .keyLoad key] s) = true

/-- 70_reset_and_hazards.md R178: until a valid set has been loaded, SBOX_LOOKUP, ENCRYPT and DECRYPT
of well-formed operands answer NotConfigured, whatever other commands came before; likewise ENCRYPT
and DECRYPT until a key has been loaded. -/
def Obligations.NotConfiguredUntilLoaded : Prop :=
  ∀ (is : List Instr) (s : State) (block : List Byte) (q : Byte), block.length = 8 →
    q.toNat < 128 →
    (s.sboxValid = false → (∀ p, .sboxLoad p ∈ is → ¬ SetOk p) →
      Answers (exec (.sboxLookup [q]) (afterCommands is s)) ⟨.notConfigured, []⟩
        (fun u => persistent u = persistent (afterCommands is s)) ∧
      Answers (exec (.encrypt block) (afterCommands is s)) ⟨.notConfigured, []⟩
        (fun u => persistent u = persistent (afterCommands is s)) ∧
      Answers (exec (.decrypt block) (afterCommands is s)) ⟨.notConfigured, []⟩
        (fun u => persistent u = persistent (afterCommands is s))) ∧
    (s.keyValid = false → (∀ p, .keyLoad p ∈ is → p.length ≠ 32) →
      Answers (exec (.encrypt block) (afterCommands is s)) ⟨.notConfigured, []⟩
        (fun u => persistent u = persistent (afterCommands is s)) ∧
      Answers (exec (.decrypt block) (afterCommands is s)) ⟨.notConfigured, []⟩
        (fun u => persistent u = persistent (afterCommands is s)))

/-! ### The cipher -/

/-- 43_block_transform.md R128: DECRYPT recovers the block from what ENCRYPT answered, at any later
time with no successful SBOX_LOAD or KEY_LOAD in between. -/
def Obligations.DecryptRecoversTheBlock : Prop :=
  ∀ (p : List Byte) (s : State), p.length = 8 → s.sboxValid = true → s.keyValid = true →
    ∃ c u, c.length = 8 ∧ exec (.encrypt p) s = .next u ∧ u.tx = some ⟨.ok, c⟩ ∧
      ∀ is : List Instr, (∀ q, .sboxLoad q ∈ is → ¬ SetOk q) →
        (∀ q, .keyLoad q ∈ is → q.length ≠ 32) →
        Answers (exec (.decrypt c) (afterCommands is (deliver u))) ⟨.ok, p⟩ (fun _ => True)

/-- 43_block_transform.md R129, R130: under any loaded set and key, permutations or not, ENCRYPT and
DECRYPT are mutually inverse bijections on the blocks. -/
def Obligations.TransformsAreInverseBijections : Prop :=
  ∀ (s : State), s.sboxValid = true → s.keyValid = true →
    ∃ E D : List Byte → List Byte,
      (∀ p, p.length = 8 → (E p).length = 8 ∧ (D p).length = 8 ∧ D (E p) = p ∧ E (D p) = p) ∧
      ∀ (p : List Byte) (v : State), p.length = 8 → persistent v = persistent s →
        Answers (exec (.encrypt p) v) ⟨.ok, E p⟩ (WorkOnly v) ∧
        Answers (exec (.decrypt p) v) ⟨.ok, D p⟩ (WorkOnly v)

/-- 43_block_transform.md R131: the transform without exchanges gives the same result. -/
def Obligations.ExchangeFreeFormIsEqual : Prop :=
  ∀ (dir : Bool) (p : List Byte) (s : State), p.length = 8 → s.sboxValid = true →
    s.keyValid = true →
    Answers (exec (if dir then .decrypt p else .encrypt p) s)
      ⟨.ok, exchangeFree s.lut s.k dir p⟩ (WorkOnly s)

/-- 40_sbox.md R78: the packed tables have the entries of the formula and give the same substituted
word. -/
def Obligations.PackedTablesAreEqual : Prop :=
  ∀ lut : Lut,
    (∀ (i : Fin 4) (y : Fin 256), (packLut lut)[i][y].toNat =
      16 * (lut[2 * i.val + 1][y.val / 16]).toNat + (lut[2 * i.val][y.val % 16]).toNat) ∧
    ∀ b : Word, subPacked (packLut lut) b = subWord lut b

/-- 41_key_schedule.md R92: with `K[j] = K[7 - j]` for every `j`, ENCRYPT and DECRYPT give equal
responses; and they are different functions in general. -/
def Obligations.PalindromicKeysMakeBothEqual : Prop :=
  (∀ (p : List Byte) (s : State), (∀ j : Fin 8, s.k[j] = s.k[7 - j.val]) →
    ∃ u v, exec (.encrypt p) s = .next u ∧ exec (.decrypt p) s = .next v ∧ u.tx = v.tx) ∧
  ∃ (p : List Byte) (s u v : State), exec (.encrypt p) s = .next u ∧
    exec (.decrypt p) s = .next v ∧ u.tx ≠ v.tx

/-! ### Encoding -/

/-- 30_encoding.md R50, R52, R64: decoding the frame of a well-formed command gives the command and
exactly the bytes after the frame. -/
def Obligations.EncodedCommandsDecode : Prop :=
  ∀ (i : Instr) (rest : List Byte), i.wellFormed = true →
    decode (encode i ++ rest) = .ok (i, rest)

/-- 30_encoding.md R54: framing is total and loses no byte: bytes either begin with the frame of
exactly one well-formed command, of 2 + LEN bytes, or are a proper beginning of a frame. -/
def Obligations.FramingIsTotal : Prop :=
  ∀ bytes : List Byte,
    (∃ i rest, decode bytes = .ok (i, rest) ∧ i.wellFormed = true ∧ bytes = encode i ++ rest ∧
      (encode i).length = 2 + (bytes.getD 1 0).toNat ∧
      ∀ j rest', j.wellFormed = true → bytes = encode j ++ rest' → j = i ∧ rest' = rest) ∨
    ((∃ e, decode bytes = .error e) ∧
      (bytes.length < 2 ∨ bytes.length < 2 + (bytes.getD 1 0).toNat))

/-- 30_encoding.md R52, R61: the rows of the opcode map tile the opcodes, and the command an opcode
selects has that opcode. -/
def Obligations.OpcodeRowsTile : Prop :=
  ∀ op : Byte, (opcodeRows.filter fun row => row.selects op).length = 1 ∧
    ∀ p, opcodeOf (decodeOpcode op p) = op

/-- Frames written out from 30_encoding.md R50, R52, R65 and from program P5 decode to the commands
they stand for. -/
def Obligations.WrittenOutFramesDecode : Prop :=
  decode [0x01, 0x00] = .ok (.sboxLoad [], []) ∧
  decode [0x02, 0x01, 0x23] = .ok (.sboxLookup [0x23], []) ∧
  decode [0x03, 0x01, 0xAA, 0x04] = .ok (.keyLoad [0xAA], [0x04]) ∧
  decode [0x04, 0x08, 0x00, 0x11, 0x22, 0x33, 0x44, 0x55, 0x66, 0x77] =
    .ok (.encrypt [0x00, 0x11, 0x22, 0x33, 0x44, 0x55, 0x66, 0x77], []) ∧
  decode [0x05, 0x00] = .ok (.decrypt [], []) ∧
  decode [0x07, 0x02, 0x04, 0x08] = .ok (.reserved06 1 [0x04, 0x08], []) ∧
  decode [0xFF, 0x03, 0x01, 0x02, 0x03, 0x04] = .ok (.reserved80 0x7F [0x01, 0x02, 0x03], [0x04])

/-! ### The machine -/

/-- 20_memory.md R43, 30_encoding.md R54: when the bytes the core takes begin with the frame of a
well-formed command, the step is that command's rule on the state with the frame in RXBUF, followed by
the delivery of its response if the host reads. -/
def Obligations.StepRunsTheDecodedCommand : Prop :=
  ∀ (s : State) (i : Instr) (rest : List Byte), i.wellFormed = true → s.rst = false →
    (s.phase = .idle ∧ s.cmd = encode i ++ rest) ∨
      (s.phase = .recv ∧ s.cmd ≠ [] ∧ s.rxbuf ++ s.cmd = encode i ++ rest) ∨
      (s.phase = .exec ∧ s.rxbuf = encode i ∧ s.cmd = rest) →
    ∃ u, exec i { s with rxbuf := encode i, cmd := rest, phase := .exec } = .next u ∧
      step s = .next (if s.rspReady then
          { u with rsp := u.rsp ++ u.tx.toList, tx := none, rxbuf := [], phase := .idle }
        else u)

/-- 70_reset_and_hazards.md R181: while the frame is incomplete the core takes what has been sent and
waits in RECV; with nothing more to take it is stuck, and reset ends the wait. (That a stuck step is
the fault frameIncomplete is the model's: log entry 7.) -/
def Obligations.IncompleteFrameWaits : Prop :=
  ∀ s : State,
    (s.rst = false → s.phase = .recv → s.cmd = [] → step s = .fault .frameIncomplete) ∧
    (s.rst = false → (s.phase = .recv ∨ (s.phase = .idle ∧ s.rxbuf = [])) → s.cmd ≠ [] →
      (∀ i rest, i.wellFormed = true → s.rxbuf ++ s.cmd ≠ encode i ++ rest) →
      step s = .next { s with phase := .recv, rxbuf := s.rxbuf ++ s.cmd, cmd := [] }) ∧
    (s.rst = true → s.phase = .recv →
      ∃ u, step s = .next u ∧ u.phase = .idle ∧ u.rxbuf = [])

/-- From 70_reset_and_hazards.md R182: while the host does not read, the core stays in RESP, takes no
command byte and keeps the response; when it reads, the response is delivered once. That a step of the
waiting core is the fault responseUnread is the model's form of the stuck state
(93_implementation_defined.md U11; log entry 8, DEDUCED). -/
def Obligations.UnreadResponseBlocks : Prop :=
  ∀ s : State, s.rst = false →
    (s.phase = .resp → s.rspReady = false → step s = .fault .responseUnread) ∧
    (s.phase = .resp → s.rspReady = true →
      step s = .next { s with rsp := s.rsp ++ s.tx.toList, tx := none, rxbuf := [],
                              phase := .idle }) ∧
    (s.rspReady = false → s.phase ≠ .resp → ∀ u, step s = .next u → u.rsp = s.rsp ∧
      (u.phase = .resp → u.tx.isSome = true))

/-- 60_exceptions.md R169: in IDLE with nothing sent the core does nothing. -/
def Obligations.IdleCoreDoesNothing : Prop :=
  ∀ s : State, s.rst = false → s.phase = .idle → s.cmd = [] → step s = .next s

/-- 70_reset_and_hazards.md R177: reset in any phase abandons the frame and the response in progress
and gives the reset state: both flags 0, PHASE IDLE, the response stream empty, whatever the command
had done. (The state after power-on has the same values.) -/
def Obligations.ResetAbandonsTheCommand : Prop :=
  (∀ s : State, s.rst = true →
    ∃ u, step s = .next u ∧ u.sboxValid = false ∧ u.keyValid = false ∧ u.phase = .idle ∧
      u.rxbuf = [] ∧ u.tx = none ∧ u.rsp = []) ∧
  State.reset.sboxValid = false ∧ State.reset.keyValid = false ∧ State.reset.phase = .idle ∧
    State.reset.rxbuf = [] ∧ State.reset.tx = none ∧ State.reset.rsp = []

/-- 70_reset_and_hazards.md R185: every command is answered. The core can fail to go on in two ways
only: an incomplete frame with nothing more to take, and an unread response; and a whole frame before
a reading host adds exactly one response to the response stream in one step. -/
def Obligations.OnlyTheTwoStuckStates : Prop :=
  ∀ s : State, Inv s →
    ((∃ u, step s = .next u) ∨
      (s.rst = false ∧ s.phase = .recv ∧ s.cmd = [] ∧ step s = .fault .frameIncomplete) ∨
      (s.rst = false ∧ s.phase = .resp ∧ s.rspReady = false ∧ step s = .fault .responseUnread)) ∧
    ∀ (i : Instr) (rest : List Byte), i.wellFormed = true → s.rst = false → s.rspReady = true →
      (s.phase = .idle ∨ s.phase = .recv) → s.cmd ≠ [] → s.rxbuf ++ s.cmd = encode i ++ rest →
      ∃ u r, step s = .next u ∧ u.rsp = s.rsp ++ [r] ∧ u.phase = .idle ∧ u.cmd = rest

/-- The invariant of the core holds right after reset (10_state.md R24, R18, R19; it rests on the
reset value 0 of RC, log entry 3, only for RC). -/
def Obligations.InvariantAtReset : Prop := Inv State.reset

/-- Every step keeps the invariant of the core: the tables of a loaded set are permutations, RC stays
within 0 to 32, PHASE agrees with RXBUF and the response, RXBUF within its capacity, and only the
listed responses leave (10_state.md R24, R16, R18, R19, 30_encoding.md R60, R62). -/
def Obligations.StepKeepsTheInvariant : Prop :=
  ∀ s u : State, Inv s → step s = .next u → Inv u

/-- 10_state.md R12, R13, R14, R15: without reset, LUT and SBOX_VALID change only by a successful
SBOX_LOAD, whose set they then hold, K and KEY_VALID only by a successful KEY_LOAD; no step but reset
clears a flag. -/
def Obligations.OnlySuccessfulLoadsWrite : Prop :=
  ∀ s u : State, Inv s → s.rst = false → step s = .next u →
    ((u.lut = s.lut ∧ u.sboxValid = s.sboxValid) ∨
      ∃ p rest, SetOk p ∧ s.rxbuf ++ s.cmd = encode (.sboxLoad p) ++ rest ∧
        u.sboxValid = true ∧ ∀ (t : Fin 8) (x : Fin 16),
          u.lut[t][x].toNat = (p.getD (16 * t.val + x.val) 0).toNat) ∧
    ((u.k = s.k ∧ u.keyValid = s.keyValid) ∨
      ∃ p rest, p.length = 32 ∧ s.rxbuf ++ s.cmd = encode (.keyLoad p) ++ rest ∧
        u.keyValid = true ∧ ∀ j : Fin 8, u.k[j] = payloadWord p (4 * j.val)) ∧
    (s.sboxValid = true → u.sboxValid = true) ∧ (s.keyValid = true → u.keyValid = true)

/-- 10_state.md R27: contents that have no value are never observed. Two states that agree on
everything that has a value take the same step, to states that agree again: LUT before a load, K before
a load and N1, N2, RC, DIR between commands reach no response and no later state. -/
def Obligations.ValuelessContentsAreNeverObserved : Prop :=
  ∀ s t : State, Agree s t →
    match step s with
    | .next u => ∃ v, step t = .next v ∧ Agree u v
    | .fault f => step t = .fault f
    | .refused r => step t = .refused r

/-- 20_memory.md R43: the machine run on a stream of whole frames is the fold of the command rules:
after `n` frames, `n` steps have delivered `n` responses in the order of their commands and left the
state of the commands applied one after another. (One step per frame: 00_scope.md R6, log entry 7.) -/
def Obligations.StreamIsTheFoldOfItsCommands : Prop :=
  ∀ (is : List Instr) (rest : List Byte) (s : State), (∀ i ∈ is, i.wellFormed = true) → Ready s →
    Host.Core.run Sys2Proof.core is.length (hostSend ((is.map encode).flatten ++ rest) s) =
      .next (hostSend rest (afterCommands is s)) ∧
    (afterCommands is s).rsp.length = s.rsp.length + is.length ∧ Ready (afterCommands is s)

/-! ### The host's ECB sequence -/

/-- 44_ecb_host_sequence.md R142, R143: both checks come before any frame is sent; the length check is
reported first; a length of 0 succeeds and sends nothing. -/
def Obligations.EcbChecksComeFirst : Prop :=
  ∀ (dir : Bool) (dst src : List Byte) (s : State),
    (src.length % 8 ≠ 0 → cryptBlocks dir dst src s = some (.invalidInputLength, dst, s)) ∧
    (src.length % 8 = 0 → dst.length < src.length →
      cryptBlocks dir dst src s = some (.bufferTooSmall, dst, s)) ∧
    (src = [] → cryptBlocks dir dst src s = some (.ok, dst, s))

/-- 44_ecb_host_sequence.md R144, R145: on a configured core each source block is transformed by
itself, and lands at its own offset; the rest of a longer destination is not written; the core's
persistent state is as before. -/
def Obligations.EcbTransformsEachBlock : Prop :=
  ∀ (dir : Bool) (dst src : List Byte) (s : State), Ready s → s.sboxValid = true →
    s.keyValid = true → src.length % 8 = 0 → src.length ≤ dst.length →
    ∃ out u, cryptBlocks dir dst src s = some (.ok, out ++ dst.drop src.length, u) ∧
      out.length = src.length ∧ persistent u = persistent s ∧ Ready u ∧
      u.rsp.length = s.rsp.length + src.length / 8 ∧
      ∀ i, i < src.length / 8 →
        Answers (exec (if dir then .decrypt ((src.drop (8 * i)).take 8)
            else .encrypt ((src.drop (8 * i)).take 8)) s)
          ⟨.ok, (out.drop (8 * i)).take 8⟩ (fun _ => True)

/-- 44_ecb_host_sequence.md R147: decrypting the ECB encryption of a buffer reproduces the buffer. -/
def Obligations.EcbRoundTrip : Prop :=
  ∀ (src : List Byte) (s : State), Ready s → s.sboxValid = true → s.keyValid = true →
    src.length % 8 = 0 →
    ∃ out u v, cryptBlocks false src src s = some (.ok, out, u) ∧
      cryptBlocks true out out u = some (.ok, src, v)

/-- 44_ecb_host_sequence.md R148: on a core without set or key the call fails with NotConfigured, the
destination is as it was and so is the core's persistent state. -/
def Obligations.EcbOnUnconfiguredCoreFails : Prop :=
  ∀ (dir : Bool) (dst src : List Byte) (s : State), Ready s →
    ¬ (s.sboxValid = true ∧ s.keyValid = true) → src.length % 8 = 0 → src ≠ [] →
    src.length ≤ dst.length →
    ∃ u, cryptBlocks dir dst src s = some (.notConfigured, dst, u) ∧ persistent u = persistent s
end

