-- ==== Sys2Proof/Laws/State.lean ====
section
/-! SUPPORT. What each update of the state leaves in each field, true by `rfl`, so that no proof
unfolds a record update. -/

namespace Sys2Proof.Machine

@[simp] theorem answer_lut (r : Response) (s : State) : (answer r s).lut = s.lut := rfl
@[simp] theorem answer_sboxValid (r : Response) (s : State) :
    (answer r s).sboxValid = s.sboxValid := rfl
@[simp] theorem answer_k (r : Response) (s : State) : (answer r s).k = s.k := rfl
@[simp] theorem answer_keyValid (r : Response) (s : State) :
    (answer r s).keyValid = s.keyValid := rfl
@[simp] theorem answer_n1 (r : Response) (s : State) : (answer r s).n1 = s.n1 := rfl
@[simp] theorem answer_n2 (r : Response) (s : State) : (answer r s).n2 = s.n2 := rfl
@[simp] theorem answer_rc (r : Response) (s : State) : (answer r s).rc = s.rc := rfl
@[simp] theorem answer_dir (r : Response) (s : State) : (answer r s).dir = s.dir := rfl
@[simp] theorem answer_phase (r : Response) (s : State) : (answer r s).phase = .resp := rfl
@[simp] theorem answer_rxbuf (r : Response) (s : State) : (answer r s).rxbuf = s.rxbuf := rfl
@[simp] theorem answer_tx (r : Response) (s : State) : (answer r s).tx = some r := rfl
@[simp] theorem answer_cmd (r : Response) (s : State) : (answer r s).cmd = s.cmd := rfl
@[simp] theorem answer_rsp (r : Response) (s : State) : (answer r s).rsp = s.rsp := rfl
@[simp] theorem answer_rst (r : Response) (s : State) : (answer r s).rst = s.rst := rfl
@[simp] theorem answer_rspReady (r : Response) (s : State) :
    (answer r s).rspReady = s.rspReady := rfl
@[simp] theorem answer_freeCount (r : Response) (s : State) :
    (answer r s).freeCount = s.freeCount := rfl

@[simp] theorem deliver_lut (s : State) : (deliver s).lut = s.lut := rfl
@[simp] theorem deliver_sboxValid (s : State) : (deliver s).sboxValid = s.sboxValid := rfl
@[simp] theorem deliver_k (s : State) : (deliver s).k = s.k := rfl
@[simp] theorem deliver_keyValid (s : State) : (deliver s).keyValid = s.keyValid := rfl
@[simp] theorem deliver_n1 (s : State) : (deliver s).n1 = s.n1 := rfl
@[simp] theorem deliver_n2 (s : State) : (deliver s).n2 = s.n2 := rfl
@[simp] theorem deliver_rc (s : State) : (deliver s).rc = s.rc := rfl
@[simp] theorem deliver_dir (s : State) : (deliver s).dir = s.dir := rfl
@[simp] theorem deliver_phase (s : State) : (deliver s).phase = .idle := rfl
@[simp] theorem deliver_rxbuf (s : State) : (deliver s).rxbuf = [] := rfl
@[simp] theorem deliver_tx (s : State) : (deliver s).tx = none := rfl
@[simp] theorem deliver_cmd (s : State) : (deliver s).cmd = s.cmd := rfl
@[simp] theorem deliver_rsp (s : State) : (deliver s).rsp = s.rsp ++ s.tx.toList := rfl
@[simp] theorem deliver_rst (s : State) : (deliver s).rst = s.rst := rfl
@[simp] theorem deliver_rspReady (s : State) : (deliver s).rspReady = s.rspReady := rfl
@[simp] theorem deliver_freeCount (s : State) : (deliver s).freeCount = s.freeCount := rfl

@[simp] theorem receive_lut (s : State) : (receive s).lut = s.lut := rfl
@[simp] theorem receive_sboxValid (s : State) : (receive s).sboxValid = s.sboxValid := rfl
@[simp] theorem receive_k (s : State) : (receive s).k = s.k := rfl
@[simp] theorem receive_keyValid (s : State) : (receive s).keyValid = s.keyValid := rfl
@[simp] theorem receive_n1 (s : State) : (receive s).n1 = s.n1 := rfl
@[simp] theorem receive_n2 (s : State) : (receive s).n2 = s.n2 := rfl
@[simp] theorem receive_rc (s : State) : (receive s).rc = s.rc := rfl
@[simp] theorem receive_dir (s : State) : (receive s).dir = s.dir := rfl
@[simp] theorem receive_phase (s : State) : (receive s).phase = .recv := rfl
@[simp] theorem receive_rxbuf (s : State) :
    (receive s).rxbuf = (s.rxbuf ++ s.cmd).take (frameLength (s.rxbuf ++ s.cmd)) := rfl
@[simp] theorem receive_tx (s : State) : (receive s).tx = s.tx := rfl
@[simp] theorem receive_cmd (s : State) :
    (receive s).cmd = (s.rxbuf ++ s.cmd).drop (frameLength (s.rxbuf ++ s.cmd)) := rfl
@[simp] theorem receive_rsp (s : State) : (receive s).rsp = s.rsp := rfl
@[simp] theorem receive_rst (s : State) : (receive s).rst = s.rst := rfl
@[simp] theorem receive_rspReady (s : State) : (receive s).rspReady = s.rspReady := rfl
@[simp] theorem receive_freeCount (s : State) : (receive s).freeCount = s.freeCount := rfl

@[simp] theorem openFrame_lut (s : State) : (openFrame s).lut = s.lut := rfl
@[simp] theorem openFrame_sboxValid (s : State) : (openFrame s).sboxValid = s.sboxValid := rfl
@[simp] theorem openFrame_k (s : State) : (openFrame s).k = s.k := rfl
@[simp] theorem openFrame_keyValid (s : State) : (openFrame s).keyValid = s.keyValid := rfl
@[simp] theorem openFrame_n1 (s : State) : (openFrame s).n1 = s.n1 := rfl
@[simp] theorem openFrame_n2 (s : State) : (openFrame s).n2 = s.n2 := rfl
@[simp] theorem openFrame_rc (s : State) : (openFrame s).rc = s.rc := rfl
@[simp] theorem openFrame_dir (s : State) : (openFrame s).dir = s.dir := rfl
@[simp] theorem openFrame_phase (s : State) : (openFrame s).phase = s.phase := rfl
@[simp] theorem openFrame_rxbuf (s : State) : (openFrame s).rxbuf = [] := rfl
@[simp] theorem openFrame_tx (s : State) : (openFrame s).tx = s.tx := rfl
@[simp] theorem openFrame_cmd (s : State) : (openFrame s).cmd = s.cmd := rfl
@[simp] theorem openFrame_rsp (s : State) : (openFrame s).rsp = s.rsp := rfl
@[simp] theorem openFrame_rst (s : State) : (openFrame s).rst = s.rst := rfl
@[simp] theorem openFrame_rspReady (s : State) : (openFrame s).rspReady = s.rspReady := rfl
@[simp] theorem openFrame_freeCount (s : State) : (openFrame s).freeCount = s.freeCount := rfl

@[simp] theorem enterReset_lut (s : State) : (enterReset s).lut = State.reset.lut := rfl
@[simp] theorem enterReset_sboxValid (s : State) :
    (enterReset s).sboxValid = State.reset.sboxValid := rfl
@[simp] theorem enterReset_k (s : State) : (enterReset s).k = State.reset.k := rfl
@[simp] theorem enterReset_keyValid (s : State) :
    (enterReset s).keyValid = State.reset.keyValid := rfl
@[simp] theorem enterReset_n1 (s : State) : (enterReset s).n1 = State.reset.n1 := rfl
@[simp] theorem enterReset_n2 (s : State) : (enterReset s).n2 = State.reset.n2 := rfl
@[simp] theorem enterReset_rc (s : State) : (enterReset s).rc = State.reset.rc := rfl
@[simp] theorem enterReset_dir (s : State) : (enterReset s).dir = State.reset.dir := rfl
@[simp] theorem enterReset_phase (s : State) : (enterReset s).phase = State.reset.phase := rfl
@[simp] theorem enterReset_rxbuf (s : State) : (enterReset s).rxbuf = State.reset.rxbuf := rfl
@[simp] theorem enterReset_tx (s : State) : (enterReset s).tx = State.reset.tx := rfl
@[simp] theorem enterReset_cmd (s : State) : (enterReset s).cmd = s.cmd := rfl
@[simp] theorem enterReset_rsp (s : State) : (enterReset s).rsp = State.reset.rsp := rfl
@[simp] theorem enterReset_rst (s : State) : (enterReset s).rst = s.rst := rfl
@[simp] theorem enterReset_rspReady (s : State) : (enterReset s).rspReady = s.rspReady := rfl
@[simp] theorem enterReset_freeCount (s : State) : (enterReset s).freeCount = s.freeCount := rfl

@[simp] theorem hostSend_lut (bytes : List Byte) (s : State) : (hostSend bytes s).lut = s.lut := rfl
@[simp] theorem hostSend_sboxValid (bytes : List Byte) (s : State) :
    (hostSend bytes s).sboxValid = s.sboxValid := rfl
@[simp] theorem hostSend_k (bytes : List Byte) (s : State) : (hostSend bytes s).k = s.k := rfl
@[simp] theorem hostSend_keyValid (bytes : List Byte) (s : State) :
    (hostSend bytes s).keyValid = s.keyValid := rfl
@[simp] theorem hostSend_n1 (bytes : List Byte) (s : State) : (hostSend bytes s).n1 = s.n1 := rfl
@[simp] theorem hostSend_n2 (bytes : List Byte) (s : State) : (hostSend bytes s).n2 = s.n2 := rfl
@[simp] theorem hostSend_rc (bytes : List Byte) (s : State) : (hostSend bytes s).rc = s.rc := rfl
@[simp] theorem hostSend_dir (bytes : List Byte) (s : State) : (hostSend bytes s).dir = s.dir := rfl
@[simp] theorem hostSend_phase (bytes : List Byte) (s : State) :
    (hostSend bytes s).phase = s.phase := rfl
@[simp] theorem hostSend_rxbuf (bytes : List Byte) (s : State) :
    (hostSend bytes s).rxbuf = s.rxbuf := rfl
@[simp] theorem hostSend_tx (bytes : List Byte) (s : State) : (hostSend bytes s).tx = s.tx := rfl
@[simp] theorem hostSend_cmd (bytes : List Byte) (s : State) :
    (hostSend bytes s).cmd = s.cmd ++ bytes := rfl
@[simp] theorem hostSend_rsp (bytes : List Byte) (s : State) : (hostSend bytes s).rsp = s.rsp := rfl
@[simp] theorem hostSend_rst (bytes : List Byte) (s : State) : (hostSend bytes s).rst = s.rst := rfl
@[simp] theorem hostSend_rspReady (bytes : List Byte) (s : State) :
    (hostSend bytes s).rspReady = s.rspReady := rfl
@[simp] theorem hostSend_freeCount (bytes : List Byte) (s : State) :
    (hostSend bytes s).freeCount = s.freeCount := rfl

@[simp] theorem hostReset_lut (asserted : Bool) (s : State) :
    (hostReset asserted s).lut = s.lut := rfl
@[simp] theorem hostReset_sboxValid (asserted : Bool) (s : State) :
    (hostReset asserted s).sboxValid = s.sboxValid := rfl
@[simp] theorem hostReset_k (asserted : Bool) (s : State) : (hostReset asserted s).k = s.k := rfl
@[simp] theorem hostReset_keyValid (asserted : Bool) (s : State) :
    (hostReset asserted s).keyValid = s.keyValid := rfl
@[simp] theorem hostReset_n1 (asserted : Bool) (s : State) : (hostReset asserted s).n1 = s.n1 := rfl
@[simp] theorem hostReset_n2 (asserted : Bool) (s : State) : (hostReset asserted s).n2 = s.n2 := rfl
@[simp] theorem hostReset_rc (asserted : Bool) (s : State) : (hostReset asserted s).rc = s.rc := rfl
@[simp] theorem hostReset_dir (asserted : Bool) (s : State) :
    (hostReset asserted s).dir = s.dir := rfl
@[simp] theorem hostReset_phase (asserted : Bool) (s : State) :
    (hostReset asserted s).phase = s.phase := rfl
@[simp] theorem hostReset_rxbuf (asserted : Bool) (s : State) :
    (hostReset asserted s).rxbuf = s.rxbuf := rfl
@[simp] theorem hostReset_tx (asserted : Bool) (s : State) : (hostReset asserted s).tx = s.tx := rfl
@[simp] theorem hostReset_cmd (asserted : Bool) (s : State) :
    (hostReset asserted s).cmd = s.cmd := rfl
@[simp] theorem hostReset_rsp (asserted : Bool) (s : State) :
    (hostReset asserted s).rsp = s.rsp := rfl
@[simp] theorem hostReset_rst (asserted : Bool) (s : State) :
    (hostReset asserted s).rst = asserted := rfl
@[simp] theorem hostReset_rspReady (asserted : Bool) (s : State) :
    (hostReset asserted s).rspReady = s.rspReady := rfl
@[simp] theorem hostReset_freeCount (asserted : Bool) (s : State) :
    (hostReset asserted s).freeCount = s.freeCount := rfl

@[simp] theorem hostReading_lut (reads : Bool) (s : State) :
    (hostReading reads s).lut = s.lut := rfl
@[simp] theorem hostReading_sboxValid (reads : Bool) (s : State) :
    (hostReading reads s).sboxValid = s.sboxValid := rfl
@[simp] theorem hostReading_k (reads : Bool) (s : State) : (hostReading reads s).k = s.k := rfl
@[simp] theorem hostReading_keyValid (reads : Bool) (s : State) :
    (hostReading reads s).keyValid = s.keyValid := rfl
@[simp] theorem hostReading_n1 (reads : Bool) (s : State) : (hostReading reads s).n1 = s.n1 := rfl
@[simp] theorem hostReading_n2 (reads : Bool) (s : State) : (hostReading reads s).n2 = s.n2 := rfl
@[simp] theorem hostReading_rc (reads : Bool) (s : State) : (hostReading reads s).rc = s.rc := rfl
@[simp] theorem hostReading_dir (reads : Bool) (s : State) :
    (hostReading reads s).dir = s.dir := rfl
@[simp] theorem hostReading_phase (reads : Bool) (s : State) :
    (hostReading reads s).phase = s.phase := rfl
@[simp] theorem hostReading_rxbuf (reads : Bool) (s : State) :
    (hostReading reads s).rxbuf = s.rxbuf := rfl
@[simp] theorem hostReading_tx (reads : Bool) (s : State) : (hostReading reads s).tx = s.tx := rfl
@[simp] theorem hostReading_cmd (reads : Bool) (s : State) :
    (hostReading reads s).cmd = s.cmd := rfl
@[simp] theorem hostReading_rsp (reads : Bool) (s : State) :
    (hostReading reads s).rsp = s.rsp := rfl
@[simp] theorem hostReading_rst (reads : Bool) (s : State) :
    (hostReading reads s).rst = s.rst := rfl
@[simp] theorem hostReading_rspReady (reads : Bool) (s : State) :
    (hostReading reads s).rspReady = reads := rfl
@[simp] theorem hostReading_freeCount (reads : Bool) (s : State) :
    (hostReading reads s).freeCount = s.freeCount := rfl

@[simp] theorem placeFrame_lut (frame : List Byte) (s : State) :
    (placeFrame frame s).lut = s.lut := rfl
@[simp] theorem placeFrame_sboxValid (frame : List Byte) (s : State) :
    (placeFrame frame s).sboxValid = s.sboxValid := rfl
@[simp] theorem placeFrame_k (frame : List Byte) (s : State) : (placeFrame frame s).k = s.k := rfl
@[simp] theorem placeFrame_keyValid (frame : List Byte) (s : State) :
    (placeFrame frame s).keyValid = s.keyValid := rfl
@[simp] theorem placeFrame_n1 (frame : List Byte) (s : State) :
    (placeFrame frame s).n1 = s.n1 := rfl
@[simp] theorem placeFrame_n2 (frame : List Byte) (s : State) :
    (placeFrame frame s).n2 = s.n2 := rfl
@[simp] theorem placeFrame_rc (frame : List Byte) (s : State) :
    (placeFrame frame s).rc = s.rc := rfl
@[simp] theorem placeFrame_dir (frame : List Byte) (s : State) :
    (placeFrame frame s).dir = s.dir := rfl
@[simp] theorem placeFrame_phase (frame : List Byte) (s : State) :
    (placeFrame frame s).phase = .idle := rfl
@[simp] theorem placeFrame_rxbuf (frame : List Byte) (s : State) :
    (placeFrame frame s).rxbuf = [] := rfl
@[simp] theorem placeFrame_tx (frame : List Byte) (s : State) :
    (placeFrame frame s).tx = none := rfl
@[simp] theorem placeFrame_cmd (frame : List Byte) (s : State) :
    (placeFrame frame s).cmd = frame ++ s.cmd := rfl
@[simp] theorem placeFrame_rsp (frame : List Byte) (s : State) :
    (placeFrame frame s).rsp = s.rsp := rfl
@[simp] theorem placeFrame_rst (frame : List Byte) (s : State) :
    (placeFrame frame s).rst = false := rfl
@[simp] theorem placeFrame_rspReady (frame : List Byte) (s : State) :
    (placeFrame frame s).rspReady = s.rspReady := rfl
@[simp] theorem placeFrame_freeCount (frame : List Byte) (s : State) :
    (placeFrame frame s).freeCount = s.freeCount := rfl

@[simp] theorem commitSet_lut (p : List Byte) (s : State) : (commitSet p s).lut = lutOf p := rfl
@[simp] theorem commitSet_sboxValid (p : List Byte) (s : State) :
    (commitSet p s).sboxValid = true := rfl
@[simp] theorem commitSet_k (p : List Byte) (s : State) : (commitSet p s).k = s.k := rfl
@[simp] theorem commitSet_keyValid (p : List Byte) (s : State) :
    (commitSet p s).keyValid = s.keyValid := rfl
@[simp] theorem commitSet_n1 (p : List Byte) (s : State) : (commitSet p s).n1 = s.n1 := rfl
@[simp] theorem commitSet_n2 (p : List Byte) (s : State) : (commitSet p s).n2 = s.n2 := rfl
@[simp] theorem commitSet_rc (p : List Byte) (s : State) : (commitSet p s).rc = s.rc := rfl
@[simp] theorem commitSet_dir (p : List Byte) (s : State) : (commitSet p s).dir = s.dir := rfl
@[simp] theorem commitSet_phase (p : List Byte) (s : State) : (commitSet p s).phase = s.phase := rfl
@[simp] theorem commitSet_rxbuf (p : List Byte) (s : State) : (commitSet p s).rxbuf = s.rxbuf := rfl
@[simp] theorem commitSet_tx (p : List Byte) (s : State) : (commitSet p s).tx = s.tx := rfl
@[simp] theorem commitSet_cmd (p : List Byte) (s : State) : (commitSet p s).cmd = s.cmd := rfl
@[simp] theorem commitSet_rsp (p : List Byte) (s : State) : (commitSet p s).rsp = s.rsp := rfl
@[simp] theorem commitSet_rst (p : List Byte) (s : State) : (commitSet p s).rst = s.rst := rfl
@[simp] theorem commitSet_rspReady (p : List Byte) (s : State) :
    (commitSet p s).rspReady = s.rspReady := rfl
@[simp] theorem commitSet_freeCount (p : List Byte) (s : State) :
    (commitSet p s).freeCount = s.freeCount := rfl

@[simp] theorem commitKey_lut (p : List Byte) (s : State) : (commitKey p s).lut = s.lut := rfl
@[simp] theorem commitKey_sboxValid (p : List Byte) (s : State) :
    (commitKey p s).sboxValid = s.sboxValid := rfl
@[simp] theorem commitKey_k (p : List Byte) (s : State) : (commitKey p s).k = keyWords p := rfl
@[simp] theorem commitKey_keyValid (p : List Byte) (s : State) :
    (commitKey p s).keyValid = true := rfl
@[simp] theorem commitKey_n1 (p : List Byte) (s : State) : (commitKey p s).n1 = s.n1 := rfl
@[simp] theorem commitKey_n2 (p : List Byte) (s : State) : (commitKey p s).n2 = s.n2 := rfl
@[simp] theorem commitKey_rc (p : List Byte) (s : State) : (commitKey p s).rc = s.rc := rfl
@[simp] theorem commitKey_dir (p : List Byte) (s : State) : (commitKey p s).dir = s.dir := rfl
@[simp] theorem commitKey_phase (p : List Byte) (s : State) : (commitKey p s).phase = s.phase := rfl
@[simp] theorem commitKey_rxbuf (p : List Byte) (s : State) : (commitKey p s).rxbuf = s.rxbuf := rfl
@[simp] theorem commitKey_tx (p : List Byte) (s : State) : (commitKey p s).tx = s.tx := rfl
@[simp] theorem commitKey_cmd (p : List Byte) (s : State) : (commitKey p s).cmd = s.cmd := rfl
@[simp] theorem commitKey_rsp (p : List Byte) (s : State) : (commitKey p s).rsp = s.rsp := rfl
@[simp] theorem commitKey_rst (p : List Byte) (s : State) : (commitKey p s).rst = s.rst := rfl
@[simp] theorem commitKey_rspReady (p : List Byte) (s : State) :
    (commitKey p s).rspReady = s.rspReady := rfl
@[simp] theorem commitKey_freeCount (p : List Byte) (s : State) :
    (commitKey p s).freeCount = s.freeCount := rfl

@[simp] theorem loadBlock_lut (p : List Byte) (s : State) : (loadBlock p s).lut = s.lut := rfl
@[simp] theorem loadBlock_sboxValid (p : List Byte) (s : State) :
    (loadBlock p s).sboxValid = s.sboxValid := rfl
@[simp] theorem loadBlock_k (p : List Byte) (s : State) : (loadBlock p s).k = s.k := rfl
@[simp] theorem loadBlock_keyValid (p : List Byte) (s : State) :
    (loadBlock p s).keyValid = s.keyValid := rfl
@[simp] theorem loadBlock_n1 (p : List Byte) (s : State) :
    (loadBlock p s).n1 = payloadWord p 0 := rfl
@[simp] theorem loadBlock_n2 (p : List Byte) (s : State) :
    (loadBlock p s).n2 = payloadWord p 4 := rfl
@[simp] theorem loadBlock_rc (p : List Byte) (s : State) : (loadBlock p s).rc = 0 := rfl
@[simp] theorem loadBlock_dir (p : List Byte) (s : State) : (loadBlock p s).dir = s.dir := rfl
@[simp] theorem loadBlock_phase (p : List Byte) (s : State) : (loadBlock p s).phase = s.phase := rfl
@[simp] theorem loadBlock_rxbuf (p : List Byte) (s : State) : (loadBlock p s).rxbuf = s.rxbuf := rfl
@[simp] theorem loadBlock_tx (p : List Byte) (s : State) : (loadBlock p s).tx = s.tx := rfl
@[simp] theorem loadBlock_cmd (p : List Byte) (s : State) : (loadBlock p s).cmd = s.cmd := rfl
@[simp] theorem loadBlock_rsp (p : List Byte) (s : State) : (loadBlock p s).rsp = s.rsp := rfl
@[simp] theorem loadBlock_rst (p : List Byte) (s : State) : (loadBlock p s).rst = s.rst := rfl
@[simp] theorem loadBlock_rspReady (p : List Byte) (s : State) :
    (loadBlock p s).rspReady = s.rspReady := rfl
@[simp] theorem loadBlock_freeCount (p : List Byte) (s : State) :
    (loadBlock p s).freeCount = s.freeCount := rfl

@[simp] theorem roundStep_lut (s : State) : (roundStep s).lut = s.lut := rfl
@[simp] theorem roundStep_sboxValid (s : State) : (roundStep s).sboxValid = s.sboxValid := rfl
@[simp] theorem roundStep_k (s : State) : (roundStep s).k = s.k := rfl
@[simp] theorem roundStep_keyValid (s : State) : (roundStep s).keyValid = s.keyValid := rfl
@[simp] theorem roundStep_n1 (s : State) : (roundStep s).n1 = xor32 s.n2 (roundOutput s) := rfl
@[simp] theorem roundStep_n2 (s : State) : (roundStep s).n2 = s.n1 := rfl
@[simp] theorem roundStep_rc (s : State) : (roundStep s).rc = s.rc + 1 := rfl
@[simp] theorem roundStep_dir (s : State) : (roundStep s).dir = s.dir := rfl
@[simp] theorem roundStep_phase (s : State) : (roundStep s).phase = s.phase := rfl
@[simp] theorem roundStep_rxbuf (s : State) : (roundStep s).rxbuf = s.rxbuf := rfl
@[simp] theorem roundStep_tx (s : State) : (roundStep s).tx = s.tx := rfl
@[simp] theorem roundStep_cmd (s : State) : (roundStep s).cmd = s.cmd := rfl
@[simp] theorem roundStep_rsp (s : State) : (roundStep s).rsp = s.rsp := rfl
@[simp] theorem roundStep_rst (s : State) : (roundStep s).rst = s.rst := rfl
@[simp] theorem roundStep_rspReady (s : State) : (roundStep s).rspReady = s.rspReady := rfl
@[simp] theorem roundStep_freeCount (s : State) : (roundStep s).freeCount = s.freeCount := rfl

@[simp] theorem lastRound_lut (s : State) : (lastRound s).lut = s.lut := rfl
@[simp] theorem lastRound_sboxValid (s : State) : (lastRound s).sboxValid = s.sboxValid := rfl
@[simp] theorem lastRound_k (s : State) : (lastRound s).k = s.k := rfl
@[simp] theorem lastRound_keyValid (s : State) : (lastRound s).keyValid = s.keyValid := rfl
@[simp] theorem lastRound_n1 (s : State) : (lastRound s).n1 = s.n1 := rfl
@[simp] theorem lastRound_n2 (s : State) : (lastRound s).n2 = xor32 s.n2 (roundOutput s) := rfl
@[simp] theorem lastRound_rc (s : State) : (lastRound s).rc = s.rc + 1 := rfl
@[simp] theorem lastRound_dir (s : State) : (lastRound s).dir = s.dir := rfl
@[simp] theorem lastRound_phase (s : State) : (lastRound s).phase = s.phase := rfl
@[simp] theorem lastRound_rxbuf (s : State) : (lastRound s).rxbuf = s.rxbuf := rfl
@[simp] theorem lastRound_tx (s : State) : (lastRound s).tx = s.tx := rfl
@[simp] theorem lastRound_cmd (s : State) : (lastRound s).cmd = s.cmd := rfl
@[simp] theorem lastRound_rsp (s : State) : (lastRound s).rsp = s.rsp := rfl
@[simp] theorem lastRound_rst (s : State) : (lastRound s).rst = s.rst := rfl
@[simp] theorem lastRound_rspReady (s : State) : (lastRound s).rspReady = s.rspReady := rfl
@[simp] theorem lastRound_freeCount (s : State) : (lastRound s).freeCount = s.freeCount := rfl

@[simp] theorem releaseWork_lut (s : State) : (releaseWork s).lut = s.lut := rfl
@[simp] theorem releaseWork_sboxValid (s : State) : (releaseWork s).sboxValid = s.sboxValid := rfl
@[simp] theorem releaseWork_k (s : State) : (releaseWork s).k = s.k := rfl
@[simp] theorem releaseWork_keyValid (s : State) : (releaseWork s).keyValid = s.keyValid := rfl
@[simp] theorem releaseWork_n1 (s : State) : (releaseWork s).n1 = Config.freeHalf s.freeCount := rfl
@[simp] theorem releaseWork_n2 (s : State) :
    (releaseWork s).n2 = Config.freeHalf (s.freeCount + 1) := rfl
@[simp] theorem releaseWork_rc (s : State) :
    (releaseWork s).rc = BitVec.ofNat 6 (Config.freeRounds s.freeCount).val := rfl
@[simp] theorem releaseWork_dir (s : State) :
    (releaseWork s).dir = Config.freeDir s.freeCount := rfl
@[simp] theorem releaseWork_phase (s : State) : (releaseWork s).phase = s.phase := rfl
@[simp] theorem releaseWork_rxbuf (s : State) : (releaseWork s).rxbuf = s.rxbuf := rfl
@[simp] theorem releaseWork_tx (s : State) : (releaseWork s).tx = s.tx := rfl
@[simp] theorem releaseWork_cmd (s : State) : (releaseWork s).cmd = s.cmd := rfl
@[simp] theorem releaseWork_rsp (s : State) : (releaseWork s).rsp = s.rsp := rfl
@[simp] theorem releaseWork_rst (s : State) : (releaseWork s).rst = s.rst := rfl
@[simp] theorem releaseWork_rspReady (s : State) : (releaseWork s).rspReady = s.rspReady := rfl
@[simp] theorem releaseWork_freeCount (s : State) :
    (releaseWork s).freeCount = s.freeCount + 2 := rfl

end Sys2Proof.Machine
end

