-- ==== Sys2Proof/Laws/Block.lean ====
section
/-! SUPPORT. What the block transform can do: it writes N1, N2, RC and DIR and nothing else, and the
fields it reads (LUT, K) stay as they were through all rounds. -/

namespace Sys2Proof.Machine

/-- Rounds write N1, N2 and RC only. -/
theorem runRounds_frame (n : Nat) (s : State) :
    runRounds n s =
      { s with n1 := (runRounds n s).n1, n2 := (runRounds n s).n2, rc := (runRounds n s).rc } := by
  induction n generalizing s with
  | zero => rfl
  | succ n ih =>
    rw [runRounds, ih (roundStep s)]
    rfl

/-- One more round at the end is one more round at the start. -/
theorem runRounds_succ_last (n : Nat) (s : State) :
    runRounds (n + 1) s = roundStep (runRounds n s) := by
  induction n generalizing s with
  | zero => rfl
  | succ n ih => rw [runRounds, ih (roundStep s)]; rfl

@[simp] theorem runRounds_lut (n : Nat) (s : State) : (runRounds n s).lut = s.lut := by
  rw [runRounds_frame]

@[simp] theorem runRounds_k (n : Nat) (s : State) : (runRounds n s).k = s.k := by
  rw [runRounds_frame]

@[simp] theorem runRounds_dir (n : Nat) (s : State) : (runRounds n s).dir = s.dir := by
  rw [runRounds_frame]

/-- A state that differs from another in N1, N2, RC and DIR only. -/
def WorkFrame (u v : State) : Prop :=
  u = { v with n1 := u.n1, n2 := u.n2, rc := u.rc, dir := u.dir }

theorem WorkFrame.lastRound {u v : State} (h : WorkFrame u v) :
    WorkFrame (Sys2Proof.Machine.lastRound u) v := by
  cases u
  cases v
  simp only [WorkFrame, State.mk.injEq] at h
  simp [WorkFrame, Sys2Proof.Machine.lastRound, h]

theorem WorkFrame.runRounds (n : Nat) {u v : State} (h : WorkFrame u v) :
    WorkFrame (Sys2Proof.Machine.runRounds n u) v := by
  rw [runRounds_frame]
  generalize Sys2Proof.Machine.runRounds n u = w
  cases u
  cases v
  simp only [WorkFrame, State.mk.injEq] at h
  simp [WorkFrame, h]

/-- The whole transform writes N1, N2, RC and DIR only. -/
theorem transform_frame (dir : Bool) (p : List Byte) (s : State) :
    WorkFrame (transform dir p s) s :=
  WorkFrame.lastRound (WorkFrame.runRounds _ rfl)

/-- What a completed transform command leaves: the state before it but for the free values. -/
theorem releaseWork_transform (dir : Bool) (p : List Byte) (s : State) :
    releaseWork (transform dir p s) = releaseWork s := by
  have h := transform_frame dir p s
  generalize transform dir p s = u at h ⊢
  cases u
  cases s
  simp only [WorkFrame, State.mk.injEq] at h
  simp [releaseWork, h]

@[simp] theorem length_bytes32 (v : Word) : (bytes32 v).length = 4 := rfl

@[simp] theorem length_storeBlock (s : State) : (storeBlock s).length = 8 := rfl

end Sys2Proof.Machine
end

