-- ==== Sys2Proof/Laws/Decode.lean ====
section
/-! SUPPORT. What the frame functions can do: the length of an encoded frame, and when bytes hold a
whole frame. -/

namespace Sys2Proof

@[simp] theorem length_encode (i : Instr) : (encode i).length = 2 + i.payload.length := by
  simp only [encode, List.length_cons]
  omega

theorem wellFormed_iff (i : Instr) : i.wellFormed = true ↔ i.payload.length ≤ 255 := by
  rw [Instr.wellFormed, decide_eq_true_iff]
  rfl

@[simp] theorem payload_decodeOpcode (op : Byte) (p : List Byte) :
    (decodeOpcode op p).payload = p := by
  unfold decodeOpcode
  repeat' split
  all_goals rfl

/-- The frame length is read from the LEN byte alone, whatever follows. -/
theorem frameLength_encode {i : Instr} (h : i.wellFormed = true) (rest : List Byte) :
    frameLength (encode i ++ rest) = (encode i).length := by
  have h' := (wellFormed_iff i).1 h
  simp only [encode, List.cons_append, frameLength, BitVec.toNat_ofNat, List.length_cons]
  omega

theorem frameWhole_iff (bytes : List Byte) :
    frameWhole bytes = true ↔ frameLength bytes ≤ bytes.length := by
  simp [frameWhole]

theorem two_le_frameLength (bytes : List Byte) : 2 ≤ frameLength bytes := by
  unfold frameLength
  split <;> omega

theorem frameLength_le (bytes : List Byte) : frameLength bytes ≤ 257 := by
  unfold frameLength
  split
  · rename_i len _
    have := len.isLt
    omega
  · omega

/-- What is taken of a frame has the length of the whole frame, or is all there is. -/
theorem frameLength_take (bytes : List Byte) :
    frameLength (bytes.take (frameLength bytes)) = frameLength bytes := by
  rcases bytes with - | ⟨op, - | ⟨len, rest⟩⟩
  · rfl
  · rfl
  · simp [frameLength, Nat.add_comm 2]

/-- Bytes decode exactly when they hold a whole frame, and then exactly that frame is consumed. -/
theorem decode_whole {bytes : List Byte} (h : frameLength bytes ≤ bytes.length) :
    ∃ i, decode bytes = .ok (i, bytes.drop (frameLength bytes)) ∧ i.wellFormed = true := by
  rcases bytes with - | ⟨op, - | ⟨len, rest⟩⟩
  · simp [frameLength] at h
  · simp [frameLength] at h
  · have hl : len.toNat ≤ rest.length := by simp [frameLength] at h; omega
    refine ⟨decodeOpcode op (rest.take len.toNat), ?_, ?_⟩
    · simp [decode, hl, frameLength, Nat.add_comm 2]
    · have := len.isLt
      simp [wellFormed_iff]
      omega

theorem decode_short {bytes : List Byte} (h : bytes.length < frameLength bytes) :
    ∃ e, decode bytes = .error e := by
  rcases bytes with - | ⟨op, - | ⟨len, rest⟩⟩
  · exact ⟨_, rfl⟩
  · exact ⟨_, rfl⟩
  · have hl : ¬ len.toNat ≤ rest.length := by simp [frameLength] at h; omega
    exact ⟨.payloadIncomplete, by simp [decode, hl]⟩

end Sys2Proof
end

