-- ==== Sys2Proof/Laws/Exec.lean ====
section
/-! SUPPORT. Everything a command can do, said once: it answers, and it writes only by one of three
updates. -/

namespace Sys2Proof.Machine

theorem raise_eq (e : Status) (s : State) : raise e s = .next (answer ⟨e, []⟩ s) := rfl

theorem respondOk_eq (p : List Byte) (s : State) : respondOk p s = .next (answer ⟨.ok, p⟩ s) := rfl

/-- The updates a command can make before it answers. -/
inductive Effect (i : Instr) (s : State) : Response → State → Prop where
  /-- An error: a status other than OK, no result, nothing written. -/
  | error (e : Status) (he : e = .invalidParameters ∨ e = .invalidKeyLength ∨
      e = .invalidBlockSize ∨ e = .notConfigured ∨ e = .illegalCommand) : Effect i s ⟨e, []⟩ s
  /-- A lookup: one byte that holds a nibble, nothing written. -/
  | looked (y : Nibble) (p : List Byte) (hi : i = .sboxLookup p) (hv : s.sboxValid = true) :
      Effect i s ⟨.ok, [y.setWidth 8]⟩ s
  /-- A committed set. -/
  | set (p : List Byte) (hi : i = .sboxLoad p) (hl : p.length = 128) (hv : validSet p = true) :
      Effect i s ⟨.ok, []⟩ (commitSet p s)
  /-- A committed key. -/
  | key (p : List Byte) (hi : i = .keyLoad p) (hl : p.length = 32) :
      Effect i s ⟨.ok, []⟩ (commitKey p s)
  /-- A transformed block: eight bytes, free values in the work registers. -/
  | block (dir : Bool) (p : List Byte) (hi : i = if dir then .decrypt p else .encrypt p)
      (hl : p.length = 8) (hs : s.sboxValid = true) (hk : s.keyValid = true) :
      Effect i s ⟨.ok, storeBlock (transform dir p s)⟩ (releaseWork s)

theorem execTransform_effect (dir : Bool) (op : Byte) (hop : directionOf op = dir) (p : List Byte)
    (s : State) :
    ∃ r u, execTransform op p s = .next (answer r u) ∧
      Effect (if dir then .decrypt p else .encrypt p) s r u := by
  unfold execTransform
  split
  · exact ⟨_, _, rfl, .error _ (by simp)⟩
  · rename_i hl
    split
    · rename_i hc
      simp only [configured, Bool.and_eq_true] at hc
      refine ⟨_, _, rfl, ?_⟩
      rw [releaseWork_transform, hop]
      exact .block dir p rfl (by simpa [Config.blockBytes] using hl) hc.1 hc.2
    · exact ⟨_, _, rfl, .error _ (by simp)⟩

/-- Every command answers, with one of the effects above. -/
theorem exec_effect (i : Instr) (s : State) :
    ∃ r u, exec i s = .next (answer r u) ∧ Effect i s r u := by
  cases i with
  | sboxLoad p =>
    simp only [exec, execSboxLoad]
    split
    · exact ⟨_, _, rfl, .error _ (by simp)⟩
    · rename_i hl
      split
      · exact ⟨_, _, rfl, .set p rfl (by simpa [Config.setBytes] using hl) ‹_›⟩
      · exact ⟨_, _, rfl, .error _ (by simp)⟩
  | sboxLookup p =>
    simp only [exec, execSboxLookup]
    split
    · exact ⟨_, _, rfl, .error _ (by simp)⟩
    · split
      · exact ⟨_, _, rfl, .error _ (by simp)⟩
      · split
        · exact ⟨_, _, rfl, .looked _ p rfl ‹_›⟩
        · exact ⟨_, _, rfl, .error _ (by simp)⟩
  | keyLoad p =>
    simp only [exec, execKeyLoad]
    split
    · exact ⟨_, _, rfl, .error _ (by simp)⟩
    · rename_i hl
      exact ⟨_, _, rfl, .key p rfl (by simpa [Config.keyBytes] using hl)⟩
  | encrypt p => exact execTransform_effect false 0x04 rfl p s
  | decrypt p => exact execTransform_effect true 0x05 rfl p s
  | reserved00 p => exact ⟨_, _, rfl, .error _ (by simp)⟩
  | reserved06 low p => exact ⟨_, _, rfl, .error _ (by simp)⟩
  | reserved08 low p => exact ⟨_, _, rfl, .error _ (by simp)⟩
  | reserved10 low p => exact ⟨_, _, rfl, .error _ (by simp)⟩
  | reserved20 low p => exact ⟨_, _, rfl, .error _ (by simp)⟩
  | reserved40 low p => exact ⟨_, _, rfl, .error _ (by simp)⟩
  | reserved80 low p => exact ⟨_, _, rfl, .error _ (by simp)⟩

/-- No effect of a command touches the interface or the frame. -/
theorem Effect.interface {i : Instr} {s : State} {r : Response} {u : State} (h : Effect i s r u) :
    u.rspReady = s.rspReady ∧ u.rst = s.rst ∧ u.cmd = s.cmd ∧ u.rsp = s.rsp ∧ u.rxbuf = s.rxbuf := by
  cases h <;> exact ⟨rfl, rfl, rfl, rfl, rfl⟩

/-- ENCRYPT and DECRYPT of a block on a configured core. -/
theorem exec_block {p : List Byte} {s : State} (dir : Bool) (hl : p.length = 8)
    (hs : s.sboxValid = true) (hk : s.keyValid = true) :
    exec (if dir then .decrypt p else .encrypt p) s =
      .next (answer ⟨.ok, storeBlock (transform dir p s)⟩ (releaseWork s)) := by
  cases dir <;> simp [exec, execEncrypt, execDecrypt, execTransform, Config.blockBytes, hl, configured,
    hs, hk, respondOk, releaseWork_transform, directionOf]

/-- ENCRYPT and DECRYPT with a payload that is no block. -/
theorem exec_block_length {p : List Byte} (dir : Bool) (s : State) (hl : p.length ≠ 8) :
    exec (if dir then .decrypt p else .encrypt p) s = raise .invalidBlockSize s := by
  cases dir <;> simp [exec, execEncrypt, execDecrypt, execTransform, Config.blockBytes, hl]

/-- ENCRYPT and DECRYPT of a block without set or key. -/
theorem exec_block_unconfigured {p : List Byte} {s : State} (dir : Bool) (hl : p.length = 8)
    (h : ¬ (s.sboxValid = true ∧ s.keyValid = true)) :
    exec (if dir then .decrypt p else .encrypt p) s = raise .notConfigured s := by
  have hc : configured s = false := by
    rw [← Bool.not_eq_true]
    simpa [configured] using h
  cases dir <;> simp [exec, execEncrypt, execDecrypt, execTransform, Config.blockBytes, hl, hc]

end Sys2Proof.Machine
end

