-- ==== Sys2Proof/Laws/Cycle.lean ====
section
/-! SUPPORT. Everything a step can do, said once. -/

namespace Sys2Proof.Machine

/-- With reset asserted a step enters reset. -/
theorem step_reset {s : State} (h : s.rst = true) : step s = .next (enterReset s) := by
  simp only [step, cycle, h, if_true]

/-- In IDLE with nothing sent a step does nothing. -/
theorem step_idle_empty {s : State} (h : s.rst = false) (hp : s.phase = .idle) (hc : s.cmd = []) :
    step s = .next s := by
  simp [step, cycle, h, hp, hc]

/-- In IDLE with bytes sent a step begins a frame. -/
theorem step_idle {s : State} (h : s.rst = false) (hp : s.phase = .idle) (hc : s.cmd ≠ []) :
    step s = takeFrame (openFrame s) := by
  unfold step cycle
  rw [if_neg (by simp [h]), hp]
  exact if_neg (by simpa using hc)

/-- In RECV with nothing sent the core is stuck. -/
theorem step_recv_empty {s : State} (h : s.rst = false) (hp : s.phase = .recv) (hc : s.cmd = []) :
    step s = .fault .frameIncomplete := by
  simp [step, cycle, h, hp, hc]

/-- In RECV with bytes sent a step goes on with the frame. -/
theorem step_recv {s : State} (h : s.rst = false) (hp : s.phase = .recv) (hc : s.cmd ≠ []) :
    step s = takeFrame s := by
  unfold step cycle
  rw [if_neg (by simp [h]), hp]
  exact if_neg (by simpa using hc)

/-- In EXEC a step applies the rule of the command in RXBUF. -/
theorem step_exec {s : State} (h : s.rst = false) (hp : s.phase = .exec) : step s = runFrame s := by
  unfold step cycle
  rw [if_neg (by simp [h]), hp]

/-- In RESP a step delivers the response to a reading host. -/
theorem step_resp {s : State} (h : s.rst = false) (hp : s.phase = .resp) (hr : s.rspReady = true) :
    step s = .next (deliver s) := by
  simp [step, cycle, h, hp, hr]

/-- In RESP with a host that does not read the core is stuck. -/
theorem step_resp_unread {s : State} (h : s.rst = false) (hp : s.phase = .resp)
    (hr : s.rspReady = false) : step s = .fault .responseUnread := by
  simp [step, cycle, h, hp, hr]

/-- A frame in RXBUF is executed and its response handed over. -/
theorem runFrame_of_decode {s : State} {i : Instr} {rest : List Byte}
    (h : decode s.rxbuf = .ok (i, rest)) :
    ∃ r u, runFrame s = .next (handOver (answer r u)) ∧ Effect i s r u := by
  obtain ⟨r, u, he, hu⟩ := exec_effect i s
  exact ⟨r, u, by simp [runFrame, h, he], hu⟩

/-- What taking a frame can do: wait in RECV with every byte taken, or execute the whole frame. -/
inductive Taken (s : State) : State → Prop where
  | waits (hs : (s.rxbuf ++ s.cmd).length < frameLength (s.rxbuf ++ s.cmd)) :
      Taken s (receive s)
  | runs (i : Instr) (r : Response) (u : State)
      (hw : frameLength (s.rxbuf ++ s.cmd) ≤ (s.rxbuf ++ s.cmd).length)
      (hd : decode (receive s).rxbuf = .ok (i, []))
      (hu : Effect i { receive s with phase := .exec } r u) :
      Taken s (handOver (answer r u))

theorem takeFrame_taken (s : State) : ∃ t, takeFrame s = .next t ∧ Taken s t := by
  have hlen : frameLength (receive s).rxbuf = frameLength (s.rxbuf ++ s.cmd) := by
    simp only [receive_rxbuf, frameLength_take]
  by_cases hw : frameLength (s.rxbuf ++ s.cmd) ≤ (s.rxbuf ++ s.cmd).length
  · have hw' : frameLength (receive s).rxbuf ≤ (receive s).rxbuf.length := by
      rw [hlen, receive_rxbuf, List.length_take]
      omega
    obtain ⟨i, hi, -⟩ := decode_whole hw'
    have hnil : (receive s).rxbuf.drop (frameLength (receive s).rxbuf) = [] := by
      rw [hlen, receive_rxbuf, List.drop_eq_nil_iff, List.length_take]
      omega
    rw [hnil] at hi
    obtain ⟨r, u, hr, hu⟩ := runFrame_of_decode (s := { receive s with phase := .exec }) hi
    refine ⟨_, ?_, .runs i r u hw hi hu⟩
    simp only [takeFrame, (frameWhole_iff _).2 hw', if_true, hr]
  · have hw' : frameWhole (receive s).rxbuf = false := by
      rw [← Bool.not_eq_true, frameWhole_iff, hlen, receive_rxbuf, List.length_take]
      omega
    exact ⟨_, by simp only [takeFrame, hw', Bool.false_eq_true, if_false], .waits (by omega)⟩

/-- The cases of a step that answers a next state. -/
inductive Stepped (s : State) : State → Prop where
  | reset (h : s.rst = true) : Stepped s (enterReset s)
  | nothing (h : s.rst = false) (hp : s.phase = .idle) (hc : s.cmd = []) : Stepped s s
  | opened (t : State) (h : s.rst = false) (hp : s.phase = .idle) (hc : s.cmd ≠ [])
      (ht : Taken (openFrame s) t) : Stepped s t
  | continued (t : State) (h : s.rst = false) (hp : s.phase = .recv) (hc : s.cmd ≠ [])
      (ht : Taken s t) : Stepped s t
  | executed (i : Instr) (rest : List Byte) (r : Response) (u : State) (h : s.rst = false)
      (hp : s.phase = .exec) (hd : decode s.rxbuf = .ok (i, rest)) (hu : Effect i s r u) :
      Stepped s (handOver (answer r u))
  | delivered (h : s.rst = false) (hp : s.phase = .resp) (hr : s.rspReady = true) :
      Stepped s (deliver s)

/-- If the step answers a next state, it is one of those cases. -/
theorem step_cases {s t : State} (h : step s = .next t) : Stepped s t := by
  unfold step cycle at h
  split at h
  · cases h
    exact .reset ‹_›
  · rename_i hr
    have hr : s.rst = false := by simpa using hr
    cases hp : s.phase with
    | idle =>
      simp only [hp] at h
      split at h
      · cases h
        exact .nothing hr hp (by simpa using ‹s.cmd.isEmpty = true›)
      · obtain ⟨u, hu, ht⟩ := takeFrame_taken (openFrame s)
        rw [hu] at h
        cases h
        exact .opened _ hr hp (by simpa using ‹¬ s.cmd.isEmpty = true›) ht
    | recv =>
      simp only [hp] at h
      split at h
      · cases h
      · obtain ⟨u, hu, ht⟩ := takeFrame_taken s
        rw [hu] at h
        cases h
        exact .continued _ hr hp (by simpa using ‹¬ s.cmd.isEmpty = true›) ht
    | exec =>
      simp only [hp] at h
      cases hd : decode s.rxbuf with
      | error e => simp [runFrame, hd] at h
      | ok d =>
        obtain ⟨i, rest⟩ := d
        obtain ⟨r, u, hu, he⟩ := runFrame_of_decode hd
        rw [hu] at h
        cases h
        exact .executed i rest r u hr hp hd he
    | resp =>
      simp only [hp] at h
      split at h
      · cases h
        exact .delivered hr hp ‹_›
      · cases h

end Sys2Proof.Machine
end

