-- ==== Sys2Proof/Laws/Datapath.lean ====
section
/-! SUPPORT. The datapath operations by the numbers they compute. -/

namespace Sys2Proof.Machine

theorem toNat_nibbleAt (b : Word) (i : Nat) : (nibbleAt b i).toNat = b.toNat / 16 ^ i % 16 := by
  simp only [nibbleAt, BitVec.extractLsb'_toNat, Nat.shiftRight_eq_div_pow]
  norm_num [pow_mul]

theorem getElem_substNibbles (lut : Lut) (b : Word) (i : Fin 8) :
    (substNibbles lut b)[i] = sboxAt lut i (nibbleAt b i.val) := by
  simp [substNibbles]

/-- ROL11 is the library's rotation by 11. -/
theorem rol11_eq_rotateLeft (v : Word) : rol11 v = v.rotateLeft 11 := by
  rw [rol11, BitVec.rotateLeft_def, BitVec.add_eq_or_of_and_eq_zero]
  · apply BitVec.eq_of_getLsbD_eq
    intro j hj
    rcases Nat.lt_or_ge j 11 with h | h
    · simp [h]
    · simp [BitVec.getLsbD_of_ge v (21 + j) (by omega)]

theorem toNat_le32 (b0 b1 b2 b3 : Byte) :
    (le32 b0 b1 b2 b3).toNat =
      b0.toNat + 2 ^ 8 * b1.toNat + 2 ^ 16 * b2.toNat + 2 ^ 24 * b3.toNat := by
  have h0 := b0.isLt
  have h1 := b1.isLt
  have h2 := b2.isLt
  simp only [le32, BitVec.toNat_append]
  rw [← Nat.shiftLeft_add_eq_or_of_lt h2, ← Nat.shiftLeft_add_eq_or_of_lt h1,
    ← Nat.shiftLeft_add_eq_or_of_lt h0]
  simp only [Nat.shiftLeft_eq]
  omega

@[simp] theorem getElem_keyWords (p : List Byte) (j : Fin 8) :
    (keyWords p)[j] = payloadWord p (4 * j.val) := by
  simp [keyWords]

@[simp] theorem getElem_lutOf (p : List Byte) (t : Fin 8) (x : Fin 16) :
    (lutOf p)[t][x] = (payloadByte p (16 * t.val + x.val)).extractLsb' 0 4 := by
  simp [lutOf]

end Sys2Proof.Machine
end

