-- ==== Sys2Proof/Laws/PerInstr.lean ====
section
/-! SUPPORT. Per-instruction statements about the commands as syntax. -/

namespace Sys2Proof.Laws.FrameBounds

/-- The frame of a well-formed command has 2 to 257 bytes, two more than its payload, and its first
byte is the opcode (30_encoding.md R50, R64). -/
def Statement (i : Instr) : Prop :=
  i.wellFormed = true →
    (encode i).length = 2 + i.payload.length ∧ 2 ≤ (encode i).length ∧ (encode i).length ≤ 257 ∧
      (encode i).head? = some (opcodeOf i)

theorem of_wellFormed (i : Instr) : Statement i := fun h => by
  have h' := (wellFormed_iff i).1 h
  refine ⟨length_encode i, ?_, ?_, rfl⟩ <;> rw [length_encode] <;> omega

theorem sboxLoad (p : List Byte) : Statement (.sboxLoad p) := of_wellFormed _

theorem sboxLookup (p : List Byte) : Statement (.sboxLookup p) := of_wellFormed _

theorem keyLoad (p : List Byte) : Statement (.keyLoad p) := of_wellFormed _

theorem encrypt (p : List Byte) : Statement (.encrypt p) := of_wellFormed _

theorem decrypt (p : List Byte) : Statement (.decrypt p) := of_wellFormed _

theorem reserved00 (p : List Byte) : Statement (.reserved00 p) := of_wellFormed _

theorem reserved06 (low : BitVec 1) (p : List Byte) : Statement (.reserved06 low p) := of_wellFormed _

theorem reserved08 (low : BitVec 3) (p : List Byte) : Statement (.reserved08 low p) := of_wellFormed _

theorem reserved10 (low : BitVec 4) (p : List Byte) : Statement (.reserved10 low p) := of_wellFormed _

theorem reserved20 (low : BitVec 5) (p : List Byte) : Statement (.reserved20 low p) := of_wellFormed _

theorem reserved40 (low : BitVec 6) (p : List Byte) : Statement (.reserved40 low p) := of_wellFormed _

theorem reserved80 (low : BitVec 7) (p : List Byte) : Statement (.reserved80 low p) := of_wellFormed _

end Sys2Proof.Laws.FrameBounds
end

