-- ==== Sys2Proof/Tests/Slice0.lean ====
section
/-! SUPPORT. Tests. Every expected value comes from spec/: the vectors V1 to V3 and programs P1 to P6
of 95_test_vectors.md and 96_derived_vectors.md, the examples of the rules, and hand calculation from
30_encoding.md. -/

namespace Sys2Proof.Tests

open Sys2Proof.Machine Sys2Proof.Safety

/-! ### The data of 95_test_vectors.md section 2 -/

/-- The set ID: every table is the identity. -/
def idSet : List Byte := (List.range 128).map fun i => BitVec.ofNat 8 (i % 16)

/-- The set AFF: table `t` maps `x` to `((2 t + 3) x + t + 1) mod 16`. -/
def affSet : List Byte :=
  (List.range 128).map fun i => BitVec.ofNat 8 (((2 * (i / 16) + 3) * (i % 16) + i / 16 + 1) % 16)

/-- The set T2 of section 1.2 (general knowledge by the spec's own note, log entry 20). -/
def t2Set : List Byte :=
  [0x04, 0x0A, 0x09, 0x02, 0x0D, 0x08, 0x00, 0x0E, 0x06, 0x0B, 0x01, 0x0C, 0x07, 0x0F, 0x05, 0x03] ++
  [0x0E, 0x0B, 0x04, 0x0C, 0x06, 0x0D, 0x0F, 0x0A, 0x02, 0x03, 0x08, 0x01, 0x00, 0x07, 0x05, 0x09] ++
  [0x05, 0x08, 0x01, 0x0D, 0x0A, 0x03, 0x04, 0x02, 0x0E, 0x0F, 0x0C, 0x07, 0x06, 0x00, 0x09, 0x0B] ++
  [0x07, 0x0D, 0x0A, 0x01, 0x00, 0x08, 0x09, 0x0F, 0x0E, 0x04, 0x06, 0x0C, 0x0B, 0x02, 0x05, 0x03] ++
  [0x06, 0x0C, 0x07, 0x01, 0x05, 0x0F, 0x0D, 0x08, 0x04, 0x0A, 0x09, 0x0E, 0x00, 0x03, 0x0B, 0x02] ++
  [0x04, 0x0B, 0x0A, 0x00, 0x07, 0x02, 0x01, 0x0D, 0x03, 0x06, 0x08, 0x05, 0x09, 0x0C, 0x0F, 0x0E] ++
  [0x0D, 0x0B, 0x04, 0x01, 0x03, 0x0F, 0x05, 0x09, 0x00, 0x0A, 0x0E, 0x07, 0x06, 0x08, 0x02, 0x0C] ++
  [0x01, 0x0F, 0x0D, 0x00, 0x05, 0x07, 0x0A, 0x04, 0x09, 0x02, 0x03, 0x0E, 0x06, 0x0B, 0x08, 0x0C]

/-- The key KSEQ: bytes 00 to 1F. -/
def kseq : List Byte := (List.range 32).map fun i => BitVec.ofNat 8 i

/-- The key of V1.2. -/
def keyV12 : List Byte :=
  [0xBE, 0x5E, 0xC2, 0x00, 0x6C, 0xFF, 0x9D, 0xCF, 0x52, 0x35, 0x49, 0x59, 0xF1, 0xFF, 0x0C, 0xBF, 0xE9, 0x50, 0x61, 0xB5, 0xA6, 0x48, 0xC1, 0x03] ++
  [0x87, 0x06, 0x9C, 0x25, 0x99, 0x7C, 0x06, 0x72]

/-- The block 00 11 .. 77. -/
def block : List Byte := [0x00, 0x11, 0x22, 0x33, 0x44, 0x55, 0x66, 0x77]

/-- A core with a set and a key loaded. -/
def loaded (set key : List Byte) : State :=
  { State.reset with lut := lutOf set, sboxValid := true, k := keyWords key, keyValid := true }

/-- The bytes of the response a command leaves in progress. -/
def answerOf (o : Result) : Option (List Byte) :=
  match o with
  | .next s => s.tx.map responseBytes
  | .fault _ => none
  | .refused _ => none

/-- The bytes of the responses delivered by a step. -/
def delivered (o : Result) : Option (List (List Byte)) :=
  match o with
  | .next s => some (s.rsp.map responseBytes)
  | .fault _ => none
  | .refused _ => none

/-- A field of the next state. -/
def after {α : Type} (o : Result) (f : State → α) : Option α :=
  match o with
  | .next s => some (f s)
  | .fault _ => none
  | .refused _ => none

/-- The fault a step ends in. -/
def faultOf (o : Result) : Option Fault :=
  match o with
  | .next _ => none
  | .fault f => some f
  | .refused _ => none

/-! ### WellFormed: 255 payload bytes fit LEN, 256 do not -/

theorem test_wellFormed_accepts :
    (Instr.sboxLoad (List.replicate 255 0)).wellFormed = true := by decide +kernel

theorem test_wellFormed_refuses_long_payload :
    (Instr.sboxLoad (List.replicate 256 0)).wellFormed = false ∧
    (Instr.sboxLookup (List.replicate 256 0)).wellFormed = false ∧
    (Instr.keyLoad (List.replicate 256 0)).wellFormed = false ∧
    (Instr.encrypt (List.replicate 256 0)).wellFormed = false ∧
    (Instr.decrypt (List.replicate 256 0)).wellFormed = false ∧
    (Instr.reserved80 1 (List.replicate 256 0)).wellFormed = false := by decide +kernel

/-! ### Decode: frames written out from 30_encoding.md R50, R52, R61, one for each constructor -/

theorem test_decode_sboxLoad : decode [0b00000001, 2, 0x0A, 0x0B] = .ok (.sboxLoad [0x0A, 0x0B], []) := by
  decide

theorem test_decode_sboxLookup : decode [0b00000010, 1, 0x7F] = .ok (.sboxLookup [0x7F], []) := by decide

theorem test_decode_keyLoad : decode [0b00000011, 0, 0x02] = .ok (.keyLoad [], [0x02]) := by decide

theorem test_decode_encrypt :
    decode (0b00000100 :: 8 :: block) = .ok (.encrypt block, []) := by decide

theorem test_decode_decrypt :
    decode (0b00000101 :: 8 :: block) = .ok (.decrypt block, []) := by decide

theorem test_decode_reserved00 : decode [0b00000000, 1, 0xFF] = .ok (.reserved00 [0xFF], []) := by decide

theorem test_decode_reserved06 : decode [0b00000110, 0] = .ok (.reserved06 0b0 [], []) ∧
    decode [0b00000111, 0] = .ok (.reserved06 0b1 [], []) := by decide

theorem test_decode_reserved08 : decode [0b00001101, 0] = .ok (.reserved08 0b101 [], []) := by decide

theorem test_decode_reserved10 : decode [0b00011001, 0] = .ok (.reserved10 0b1001 [], []) := by decide

theorem test_decode_reserved20 : decode [0b00110101, 0] = .ok (.reserved20 0b10101 [], []) := by decide

theorem test_decode_reserved40 : decode [0b01100101, 0] = .ok (.reserved40 0b100101 [], []) := by decide

theorem test_decode_reserved80 : decode [0b11000110, 0] = .ok (.reserved80 0b1000110 [], []) := by decide

/-- Frames whose bytes have not all arrived (30_encoding.md R64, program P5). -/
theorem test_decode_incomplete : decode [] = .error .opcodeMissing ∧
    decode [0x04] = .error .lenMissing ∧ decode [0x04, 0x08, 0x00, 0x11] = .error .payloadIncomplete := by
  decide

/-- R65: `SBOX_LOOKUP 2, 3` is `02 01 23`. -/
theorem test_encode_lookup : encode (.sboxLookup [0x23]) = [0x02, 0x01, 0x23] := by decide

/-- The numbering of spec/opcode_table.json: OPCODE in bits 7:0, LEN in bits 15:8, the payload from
bit 16. -/
theorem test_tableWord : decodeTableWord 24 0x230102 = some (.sboxLookup [0x23]) ∧
    decodeTableWord 8 0x04 = some (.encrypt []) ∧
    decodeTableWord 16 0x02FF = some (.reserved80 0x7F [0, 0]) := by decide

/-- A step from reset runs the frame placed: V3.2.1 (`02 01 00` answers `06 00`). -/
theorem test_withFetchWord :
    delivered (step (State.reset.withFetchWord 24 0x000102)) = some [[0x06, 0x00]] := by decide

/-! ### The datapath (42_round_function.md, 96_derived_vectors.md 3.5) -/

theorem test_add32 : add32 0x01234567 0x89ABCDEF = 0x8ACF1356 ∧
    add32 0xFFFFFFFF 0xFFFFFFFF = 0xFFFFFFFE := by decide

theorem test_nibble : nibbleAt 0x8ACF1356 0 = 6 ∧ nibbleAt 0x8ACF1356 7 = 8 := by decide

theorem test_rol11 : rol11 0x12345678 = 0xA2B3C091 ∧ rol11 0x00200000 = 1 := by decide

theorem test_subWord_aff : subWord (lutOf affSet) 0x8ACF1356 = 0x0D2AD8B3 := by decide

theorem test_roundF_aff : roundF (lutOf affSet) 0x33221100 0x03020100 = 0x0E890D88 := by decide

/-- 41_key_schedule.md R97. -/
theorem test_subkey_indices :
    (encIdx 1, encIdx 9, encIdx 24, encIdx 25, encIdx 32) = (0, 0, 7, 7, 0) ∧
    (decIdx 1, decIdx 8, decIdx 9, decIdx 25, decIdx 32) = (0, 7, 7, 7, 0) := by decide

/-- The trace of V3.6.7: the halves after round 1. -/
theorem test_round_one :
    let s := runRounds 1 (loadBlock block (loaded affSet kseq))
    s.n1 = 0x79EF58CC ∧ s.n2 = 0x33221100 ∧ s.rc = 1 := by decide

/-! ### The commands, at most two tests each -/

/-- V3.1.2, and the entry of V3.2.5. -/
theorem test_sboxLoad_aff :
    answerOf (exec (.sboxLoad affSet) State.reset) = some [0x00, 0x00] ∧
    after (exec (.sboxLoad affSet) State.reset) (fun s => (s.lut[2][3], s.sboxValid)) =
      some (8, true) := by decide +kernel

/-- V3.1.6: an entry 1F whose low nibble would have completed the permutation. -/
theorem test_sboxLoad_rejects :
    answerOf (exec (.sboxLoad (idSet.set 127 0x1F)) State.reset) = some [0x01, 0x00] ∧
    after (exec (.sboxLoad (idSet.set 127 0x1F)) State.reset) State.sboxValid = some false := by
  decide +kernel

/-- V3.2.5. -/
theorem test_sboxLookup :
    answerOf (exec (.sboxLookup [0x23]) (loaded affSet kseq)) = some [0x00, 0x01, 0x08] := by decide

/-- V3.2.2: the reserved bit comes before the missing set. -/
theorem test_sboxLookup_reserved :
    answerOf (exec (.sboxLookup [0x80]) State.reset) = some [0x07, 0x00] := by decide

/-- V3.3.2. -/
theorem test_keyLoad :
    answerOf (exec (.keyLoad kseq) State.reset) = some [0x00, 0x00] ∧
    after (exec (.keyLoad kseq) State.reset) (fun s => (s.k[0], s.k[7], s.keyValid)) =
      some (0x03020100, 0x1F1E1D1C, true) := by decide

/-- V3.3.1. -/
theorem test_keyLoad_short :
    answerOf (exec (.keyLoad (kseq.take 31)) State.reset) = some [0x02, 0x00] ∧
    after (exec (.keyLoad (kseq.take 31)) State.reset) State.keyValid = some false := by decide

/-- V3.6.7. -/
theorem test_encrypt :
    answerOf (exec (.encrypt block) (loaded affSet kseq)) =
      some [0x00, 0x08, 0x9F, 0x0F, 0xC8, 0x46, 0x8D, 0x17, 0x53, 0x2F] := by decide

/-- V1.2, the document's second known-answer vector. -/
theorem test_encrypt_known_answer :
    answerOf (exec (.encrypt [0x0D, 0xF8, 0x28, 0x02, 0xB7, 0x41, 0xA2, 0x92]) (loaded t2Set keyV12)) =
      some [0x00, 0x08, 0x07, 0xF9, 0x02, 0x7D, 0xF7, 0xF7, 0xDF, 0x89] := by decide

/-- V3.6.9. -/
theorem test_decrypt :
    answerOf (exec (.decrypt block) (loaded affSet kseq)) =
      some [0x00, 0x08, 0x44, 0x56, 0xF3, 0x85, 0x28, 0xB3, 0xC2, 0xA1] := by decide

/-- V3.7.4: a key without a set; and the length comes first (V3.7.1). -/
theorem test_decrypt_errors :
    answerOf (exec (.decrypt block) { State.reset with keyValid := true }) = some [0x06, 0x00] ∧
    answerOf (exec (.decrypt (block.take 7)) State.reset) = some [0x03, 0x00] := by decide

/-- 30_encoding.md R61, V3.7.3: every reserved row. -/
theorem test_reserved :
    answerOf (exec (.reserved00 []) State.reset) = some [0x07, 0x00] ∧
    answerOf (exec (.reserved06 0 block) State.reset) = some [0x07, 0x00] ∧
    answerOf (exec (.reserved08 0 []) State.reset) = some [0x07, 0x00] ∧
    answerOf (exec (.reserved10 0 []) State.reset) = some [0x07, 0x00] ∧
    answerOf (exec (.reserved20 0 []) State.reset) = some [0x07, 0x00] ∧
    answerOf (exec (.reserved40 0 []) State.reset) = some [0x07, 0x00] ∧
    answerOf (exec (.reserved80 0x7F [1, 2, 3]) State.reset) = some [0x07, 0x00] := by decide

/-! ### The step -/

/-- Two frames sent: one step takes the first whole and leaves the second (30_encoding.md R54). -/
theorem test_step_one_frame :
    after (step (hostSend [0x06, 0x01, 0x04, 0x02, 0x00] State.reset)) State.cmd =
      some [0x02, 0x00] := by decide

/-- Program P5: an incomplete frame leaves the core in RECV, then stuck. -/
theorem test_step_incomplete :
    after (step (hostSend [0x04, 0x08, 0x00, 0x11] State.reset)) (fun s => (s.phase, s.rxbuf)) =
      some (.recv, [0x04, 0x08, 0x00, 0x11]) ∧
    faultOf (step { State.reset with phase := .recv, rxbuf := [0x04, 0x08] }) = some .frameIncomplete := by
  decide

/-- 70_reset_and_hazards.md R182: the response waits for the host. -/
theorem test_step_unread :
    after (step (hostSend [0x00, 0x00] (hostReading false State.reset)))
      (fun s => (s.phase, s.rsp)) = some (.resp, []) := by decide

/-- Program P6, 70_reset_and_hazards.md R177: reset clears both flags and the frame. -/
theorem test_step_reset :
    after (step (hostReset true { loaded affSet kseq with phase := .recv, rxbuf := [0x04] }))
      (fun s => (s.sboxValid, s.keyValid, s.phase, s.rxbuf)) = some (false, false, .idle, []) := by
  decide

/-- 30_encoding.md R66: CIPHER_INIT is SBOX_LOAD followed by KEY_LOAD. -/
theorem test_cipherInit : (cipherInit affSet kseq).length = 164 ∧
    (cipherInit affSet kseq).take 3 = [0x01, 0x80, 0x01] ∧
    ((cipherInit affSet kseq).drop 130).take 4 = [0x03, 0x20, 0x00, 0x01] := by decide +kernel

/-- V3.8.7: one block into a destination of 16 bytes. -/
theorem test_ecb_one_block :
    (cryptBlocks false (List.replicate 16 0xEE) block (loaded affSet kseq)).map (fun r => (r.1, r.2.1)) =
      some (.ok, [0x9F, 0x0F, 0xC8, 0x46, 0x8D, 0x17, 0x53, 0x2F] ++
        List.replicate 8 0xEE) := by decide

/-- V3.8.4 to V3.8.6: the checks before any frame. -/
theorem test_ecb_checks :
    (cryptBlocks false (List.replicate 9 0) (List.replicate 9 0) State.reset).map (fun r => r.1) =
      some .invalidInputLength ∧
    (cryptBlocks false (List.replicate 15 0) (List.replicate 16 0) State.reset).map (fun r => r.1) =
      some .bufferTooSmall ∧
    (cryptBlocks false (List.replicate 8 0) (List.replicate 9 0) State.reset).map (fun r => r.1) =
      some .invalidInputLength := by decide

/-! ### Witnesses: for each statement with hypotheses, a state and operands that meet them, for each
clause at a boundary of its range -/

/-- A configured core between commands. -/
def ready : State := loaded affSet kseq

theorem test_witness_ready : Ready ready := ⟨rfl, rfl, rfl, rfl, rfl, rfl⟩

theorem test_witness_ready_unconfigured :
    Ready State.reset ∧ ¬ (State.reset.sboxValid = true ∧ State.reset.keyValid = true) :=
  ⟨⟨rfl, rfl, rfl, rfl, rfl, rfl⟩, by decide⟩

theorem test_witness_setOk : SetOk idSet ∧ SetOk affSet := by decide +kernel

/-- 127 bytes, an entry above 15, and a repeated value (V3.1.11, V3.1.6, V3.1.5). -/
theorem test_witness_not_setOk : ¬ SetOk (idSet.take 127) ∧ ¬ SetOk (idSet.set 127 0x1F) ∧
    ¬ SetOk (affSet.set 5 0x01) := by decide +kernel

theorem test_witness_EachNibbleGoesThroughItsTable :
    (0x8ACF1356#32).toNat / 16 ^ (0 : Fin 8).val % 16 = (6 : Fin 16).val ∧
    (0x8ACF1356#32).toNat / 16 ^ (7 : Fin 8).val % 16 = (8 : Fin 16).val ∧
    nibbleAt 0x8ACF1356 7 = nibbleAt 0x80000000 7 := by decide

theorem test_witness_JoinKeepsPositions : Permutations (lutOf affSet) := by decide +kernel

theorem test_witness_RotationIsCircular : 31 < 32 ∧ (rol11 0x80000000).getLsbD ((31 + 11) % 32) = true ∧
    0 < 32 ∧ (rol11 1).getLsbD ((0 + 11) % 32) = true := by decide

theorem test_witness_RoundFunctionBits :
    ((0xFFFFFFFF#32).toNat + (1#32).toNat) % 2 ^ 32 / 16 ^ (7 : Fin 8).val % 16 = (0 : Fin 16).val ∧
    3 < 4 ∧ Permutations (lutOf idSet) := by decide +kernel

theorem test_witness_WordsAreLittleEndian :
    kseq.length = 32 ∧ block.length = 8 ∧ ready.sboxValid = true ∧ ready.keyValid = true := by decide

/-- Rounds 1, 24, 25 and 32: the ends of both clauses. -/
theorem test_witness_EncryptionSubkeyOrder :
    (1 ≤ 1 ∧ 1 ≤ 24 ∧ 24 ≤ 24 ∧ 25 ≤ 25 ∧ 25 ≤ 32 ∧ 32 ≤ 32) ∧
    (encIdx 1).val = (1 - 1) % 8 ∧ (encIdx 24).val = (24 - 1) % 8 ∧ (encIdx 25).val = 32 - 25 ∧
    (encIdx 32).val = 32 - 32 := by decide

/-- Rounds 1, 8, 9 and 32. -/
theorem test_witness_DecryptionSubkeyOrder :
    (decIdx 1).val = 0 ∧ (decIdx 8).val = 7 ∧ (decIdx 9).val = 7 ∧ (decIdx 32).val = 0 := by decide

theorem test_witness_PermutationCheckForms :
    (idSet.take 16).length = 16 ∧ isPerm (idSet.take 16) = true ∧
    ((idSet.take 16).set 15 0x1F).length = 16 ∧ isPerm ((idSet.take 16).set 15 0x1F) = false := by
  decide

/-- The clauses of SBOX_LOOKUP: lengths 0 and 2, operands 0x80, 0x7F (with and without a set). -/
theorem test_witness_LookupAnswersTheEntry :
    ([] : List Byte).length ≠ 1 ∧ ([0x23, 0x00] : List Byte).length ≠ 1 ∧
    128 ≤ (([0x80] : List Byte).getD 0 0).toNat ∧
    (([0x7F] : List Byte).getD 0 0).toNat < 128 ∧ State.reset.sboxValid = false ∧
    (([0x7F] : List Byte).getD 0 0).toNat = 16 * (7 : Fin 8).val + (15 : Fin 16).val ∧
    (([0x00] : List Byte).getD 0 0).toNat = 16 * (0 : Fin 8).val + (0 : Fin 16).val ∧
    ready.sboxValid = true := by decide

theorem test_witness_LookupReadsTheLoadedSet :
    SetOk affSet ∧ (0x7F#8).toNat < 128 ∧
    (commitSet affSet State.reset).lut = ready.lut ∧
    (commitSet affSet State.reset).sboxValid = ready.sboxValid := by decide +kernel

theorem test_witness_KeyLoadCommitsOrRejects :
    kseq.length = 32 ∧ (kseq.take 31).length ≠ 32 ∧ (kseq ++ [0x20]).length ≠ 32 := by decide

/-- Identity set, zero key, zero block: every `tmp` is 0 (43_block_transform.md R125). -/
theorem test_witness_RoundSequence (dir : Bool) :
    RoundSequence (lutOf idSet) (keyWords (List.replicate 32 0)) dir (List.replicate 8 0)
      (fun _ => 0) (fun _ => 0) := by
  have h : ∀ r, r < 33 → roundF (lutOf idSet) 0
      (subkey (keyWords (List.replicate 32 0)) dir r) = 0 := by
    cases dir <;> decide +kernel
  refine ⟨by decide, by decide, fun r _ h2 => ?_, fun _ _ _ => rfl, rfl, ?_⟩
  · exact (h r (by omega)).symm ▸ rfl
  · exact (h 32 (by omega)).symm ▸ rfl

/-- The clauses of ENCRYPT and DECRYPT: lengths 7, 9 and 8, unconfigured and configured. -/
theorem test_witness_TransformRunsThirtyTwoRounds :
    (block.take 7).length ≠ 8 ∧ (block ++ [0x88]).length ≠ 8 ∧ block.length = 8 ∧
    ¬ (State.reset.sboxValid = true ∧ State.reset.keyValid = true) ∧
    ready.sboxValid = true ∧ ready.keyValid = true := by decide

/-- Rounds 0 and 31: the ends of the range. -/
theorem test_witness_RoundCounterCountsTheRounds :
    (runRounds 0 (loadBlock block ready)).rc.toNat = 0 ∧ 0 ≤ 31 ∧
    (runRounds 31 (loadBlock block ready)).rc.toNat = 31 ∧ 31 ≤ 31 := by decide +kernel

/-- Opcodes 0x00, 0x06 and 0xFF, LEN 0 and 1, before a ready core. -/
theorem test_witness_ReservedOpcodesAreIllegal :
    ((0x00#8).toNat = 0 ∨ 6 ≤ (0x00#8).toNat) ∧ ((0x06#8).toNat = 0 ∨ 6 ≤ (0x06#8).toNat) ∧
    ((0xFF#8).toNat = 0 ∨ 6 ≤ (0xFF#8).toNat) ∧ ([] : List Byte).length = (0x00#8).toNat ∧
    ([0x04] : List Byte).length = (0x01#8).toNat ∧ Ready State.reset :=
  ⟨by decide, by decide, by decide, rfl, rfl, ⟨rfl, rfl, rfl, rfl, rfl, rfl⟩⟩

theorem test_witness_ErrorsChangeNothing :
    ∃ u, exec (.encrypt block) State.reset = .next u ∧ u.tx = some ⟨.notConfigured, []⟩ ∧
      Status.notConfigured ≠ .ok ∧ State.reset.rst = false ∧ State.reset.rspReady = true :=
  ⟨_, rfl, rfl, by decide, rfl, rfl⟩

theorem test_witness_ResponsesHaveTheListedShapes :
    ∃ u r, exec (.keyLoad kseq) State.reset = .next u ∧ u.tx = some r ∧ r.status = .ok :=
  ⟨_, _, rfl, rfl, rfl⟩

theorem test_witness_CommandFrames :
    (∃ u, exec (.keyLoad kseq) State.reset = .next u) ∧
    (∃ u, exec (.sboxLoad []) State.reset = .next u) ∧
    (∃ u, exec (.sboxLookup [0x23]) ready = .next u) ∧
    (∃ u, exec (.encrypt block) State.reset = .next u) ∧
    (∃ u, exec (.decrypt block) State.reset = .next u) ∧
    ∃ u, exec (.reserved80 0 []) ready = .next u :=
  ⟨⟨_, rfl⟩, ⟨_, rfl⟩, ⟨_, rfl⟩, ⟨_, rfl⟩, ⟨_, rfl⟩, ⟨_, rfl⟩⟩

theorem test_witness_KeyReachesOnlyTransformResults :
    ∀ p, (Instr.sboxLookup [0x23]) ≠ .encrypt p ∧ (Instr.sboxLookup [0x23]) ≠ .decrypt p :=
  fun _ => ⟨by simp, by simp⟩

theorem test_witness_LoadsCommute : SetOk affSet ∧ kseq.length = 32 := by decide +kernel

/-- Commands that load nothing: a rejected set, a short key, an encryption, a reserved opcode. -/
def noLoads : List Instr := [.sboxLoad [0x01], .keyLoad [0x02], .encrypt block, .reserved00 []]

theorem test_witness_NotConfiguredUntilLoaded :
    block.length = 8 ∧ (0x7F#8).toNat < 128 ∧ State.reset.sboxValid = false ∧
    State.reset.keyValid = false ∧ (∀ p, .sboxLoad p ∈ noLoads → ¬ SetOk p) ∧
    (∀ p, .keyLoad p ∈ noLoads → p.length ≠ 32) := by
  refine ⟨by decide, by decide, rfl, rfl, fun p h => ?_, fun p h => ?_⟩ <;> simp [noLoads] at h <;>
    subst h <;> decide

theorem test_witness_DecryptRecoversTheBlock :
    block.length = 8 ∧ ready.sboxValid = true ∧ ready.keyValid = true ∧
    (∀ q, .sboxLoad q ∈ noLoads → ¬ SetOk q) ∧ (∀ q, .keyLoad q ∈ noLoads → q.length ≠ 32) :=
  ⟨rfl, rfl, rfl, test_witness_NotConfiguredUntilLoaded.2.2.2.2.1,
    test_witness_NotConfiguredUntilLoaded.2.2.2.2.2⟩

theorem test_witness_TransformsAreInverseBijections :
    ready.sboxValid = true ∧ ready.keyValid = true ∧ block.length = 8 ∧
    persistent { ready with n1 := 5, rc := 32 } = persistent ready := ⟨rfl, rfl, rfl, rfl⟩

theorem test_witness_ExchangeFreeFormIsEqual :
    block.length = 8 ∧ ready.sboxValid = true ∧ ready.keyValid = true := ⟨rfl, rfl, rfl⟩

/-- The key KSYM of 95_test_vectors.md section 2. -/
def ksym : List Byte :=
  [0x10, 0x32, 0x54, 0x76, 0x98, 0xBA, 0xDC, 0xFE, 0x0F, 0x1E, 0x2D, 0x3C, 0x4B, 0x5A, 0x69, 0x78] ++
  [0x4B, 0x5A, 0x69, 0x78, 0x0F, 0x1E, 0x2D, 0x3C, 0x98, 0xBA, 0xDC, 0xFE, 0x10, 0x32, 0x54, 0x76]

theorem test_witness_PalindromicKeysMakeBothEqual :
    ∀ j : Fin 8, (loaded affSet ksym).k[j] = (loaded affSet ksym).k[7 - j.val] := by decide

/-- LEN 0 and LEN 255. -/
theorem test_witness_EncodedCommandsDecode :
    (Instr.encrypt []).wellFormed = true ∧ (Instr.reserved00 (List.replicate 255 0)).wellFormed = true := by
  decide +kernel

/-- A frame begun in IDLE, continued in RECV, and whole in EXEC. -/
theorem test_witness_StepRunsTheDecodedCommand :
    (Instr.sboxLookup [0x23]).wellFormed = true ∧
    (hostSend [0x02, 0x01, 0x23, 0x04] ready).rst = false ∧
    (hostSend [0x02, 0x01, 0x23, 0x04] ready).phase = .idle ∧
    (hostSend [0x02, 0x01, 0x23, 0x04] ready).cmd = encode (.sboxLookup [0x23]) ++ [0x04] ∧
    [0x01, 0x23, 0x04] ≠ ([] : List Byte) ∧
    [0x02] ++ [0x01, 0x23, 0x04] = encode (.sboxLookup [0x23]) ++ [0x04] ∧
    [0x02, 0x01, 0x23] = encode (.sboxLookup [0x23]) := by decide

/-- Bytes that begin with no whole frame: one OPCODE, and an OPCODE with LEN 1. -/
theorem test_witness_IncompleteFrameWaits :
    (State.reset.rst = false ∧ State.reset.phase = .idle ∧ State.reset.rxbuf = []) ∧
    (∀ i rest, i.wellFormed = true → ([] ++ [0x02] : List Byte) ≠ encode i ++ rest) ∧
    (∀ i rest, i.wellFormed = true → ([0x02] ++ [0x01] : List Byte) ≠ encode i ++ rest) := by
  refine ⟨⟨rfl, rfl, rfl⟩, fun i rest _ h => ?_, fun i rest hw h => ?_⟩
  · have := congrArg List.length h
    simp [encode] at this
  · have hl := congrArg List.length h
    have hb := congrArg (fun l => (l.getD 1 0).toNat) h
    rw [Instr.wellFormed, decide_eq_true_iff, Config.maxPayload] at hw
    simp [encode] at hl hb
    simp [hl.1] at hb

/-- The core waiting in RECV, in RESP and held in reset: plain states. -/
theorem test_witness_waiting_states :
    (∃ s : State, s.rst = false ∧ s.phase = .recv ∧ s.cmd = []) ∧
    (∃ s : State, s.rst = true ∧ s.phase = .recv) ∧
    (∃ s : State, s.rst = false ∧ s.phase = .resp ∧ s.rspReady = false) ∧
    (∃ s : State, s.rst = false ∧ s.phase = .resp ∧ s.rspReady = true) ∧
    (∃ s u : State, s.rst = false ∧ s.rspReady = false ∧ s.phase ≠ .resp ∧ step s = .next u) ∧
    (∃ s : State, s.rst = false ∧ s.phase = .idle ∧ s.cmd = []) :=
  ⟨⟨{ ready with phase := .recv }, rfl, rfl, rfl⟩, ⟨{ ready with phase := .recv, rst := true }, rfl, rfl⟩,
    ⟨{ ready with phase := .resp, rspReady := false }, rfl, rfl, rfl⟩,
    ⟨{ ready with phase := .resp }, rfl, rfl, rfl⟩,
    ⟨{ ready with rspReady := false }, _, rfl, rfl, by decide, rfl⟩, ⟨ready, rfl, rfl, rfl⟩⟩

/-- A configured core that has taken one byte of a frame, with the rest sent. -/
def receiving : State :=
  { ready with phase := .recv, rxbuf := [0x02], cmd := [0x01, 0x23], rc := 32,
               rsp := [⟨.illegalCommand, []⟩] }

theorem test_witness_inv : Inv receiving where
  tables _ := test_witness_JoinKeepsPositions
  rounds := by decide
  framing := ⟨by decide, by decide, rfl⟩
  capacity := by decide
  responses r h := by
    simp [receiving] at h
    subst h
    rfl

/-- Beside the invariant: the step answers, and a whole frame stands before a reading host. -/
theorem test_witness_OnlyTheTwoStuckStates :
    (∃ u, step receiving = .next u) ∧ (Instr.sboxLookup [0x23]).wellFormed = true ∧
    receiving.rst = false ∧ receiving.rspReady = true ∧ receiving.phase = .recv ∧
    receiving.cmd ≠ [] ∧ receiving.rxbuf ++ receiving.cmd = encode (.sboxLookup [0x23]) ++ [] :=
  ⟨⟨_, rfl⟩, by decide, rfl, rfl, rfl, by decide, by decide⟩

/-- Two unconfigured cores with different contents in every field that has no value. -/
theorem test_witness_ValuelessContentsAreNeverObserved :
    Agree State.reset
      { State.reset with lut := lutOf affSet, k := keyWords kseq, n1 := 1, n2 := 2, rc := 3, dir := true } :=
  ⟨rfl, nofun, rfl, nofun, rfl, rfl, rfl, rfl, rfl, rfl, rfl⟩

theorem test_witness_StreamIsTheFoldOfItsCommands :
    (∀ i ∈ [Instr.keyLoad kseq, .encrypt block, .reserved00 []], i.wellFormed = true) ∧ Ready ready :=
  ⟨by decide, test_witness_ready⟩

/-- Lengths 7 and 9, a destination of 15 bytes for 16, and no block at all. -/
theorem test_witness_EcbChecksComeFirst :
    (List.replicate 7 0#8).length % 8 ≠ 0 ∧ (List.replicate 9 0#8).length % 8 ≠ 0 ∧
    (List.replicate 16 0#8).length % 8 = 0 ∧
    (List.replicate 15 0#8).length < (List.replicate 16 0#8).length := by decide

theorem test_witness_Ecb :
    Ready ready ∧ ready.sboxValid = true ∧ ready.keyValid = true ∧ (block ++ block).length % 8 = 0 ∧
    block ++ block ≠ [] ∧ (block ++ block).length ≤ (block ++ block ++ [0xEE]).length ∧
    1 < (block ++ block).length / 8 :=
  ⟨test_witness_ready, rfl, rfl, rfl, by decide, by decide, by decide⟩

end Sys2Proof.Tests
end

/-! SUPPORT. The proofs of the statements about the state (10_state.md): the invariant of the core,
the agreement of states on what has a value, the round counter, and who writes what. -/

namespace Sys2Proof.Machine

/-! ### The permutation check -/

/-- The bytes 0 to 15, each once. -/
def nibbleBytes : List Byte := (List.range 16).map (BitVec.ofNat 8)

/-- Sixteen entries in which each value occurs once are the bytes 0 to 15 in some order
(40_sbox.md R70). -/
theorem perm_nibbleBytes_of_isPerm {e : List Byte} (hl : e.length = 16) (h : isPerm e = true) :
    nibbleBytes.Perm e := by
  have hmem : nibbleBytes ⊆ e := by
    intro b hb
    obtain ⟨v, hv, rfl⟩ := List.mem_map.1 hb
    have hc : e.count (BitVec.ofNat 8 v) = 1 := by
      simpa using List.all_eq_true.1 h v hv
    exact List.count_pos_iff.1 (by omega)
  have hnodup : nibbleBytes.Nodup := by decide
  exact (hnodup.subperm hmem).perm_of_length_le (by rw [hl]; decide)

theorem getElem_tableBytesOf {p : List Byte} {t x : Nat} (h : x < (tableBytesOf p t).length) :
    (tableBytesOf p t)[x] = p.getD (16 * t + x) 0 := by
  have hx : 16 * t + x < p.length := by
    simp only [tableBytesOf, List.length_take, List.length_drop] at h
    omega
  simp [tableBytesOf, hx]

end Sys2Proof.Machine

namespace Sys2Proof.Safety

open Sys2Proof.Machine

/-- The core's check, form (a) of 40_sbox.md R70, gives form (b). -/
theorem tableOk_of_isPerm {p : List Byte} {t : Nat} (hl : (tableBytesOf p t).length = 16)
    (h : isPerm (tableBytesOf p t) = true) : TableOk p t := by
  have hperm := perm_nibbleBytes_of_isPerm hl h
  have hle : ∀ b ∈ nibbleBytes, b.toNat ≤ 15 := by decide
  have hnodup : (tableBytesOf p t).Nodup := hperm.nodup_iff.1 (by decide)
  refine ⟨fun x => ?_, fun x y hxy => ?_⟩
  · rw [← getElem_tableBytesOf (by omega)]
    exact hle _ (hperm.mem_iff.2 (List.getElem_mem _))
  · rw [← getElem_tableBytesOf (by omega), ← getElem_tableBytesOf (by omega)] at hxy
    exact Fin.ext ((hnodup.getElem_inj_iff).1 hxy)

/-- What SBOX_LOAD accepts is a valid set (40_sbox.md R71). -/
theorem setOk_of_validSet {p : List Byte} (hl : p.length = 128) (h : validSet p = true) :
    SetOk p := by
  refine ⟨hl, fun t => tableOk_of_isPerm ?_ (List.all_eq_true.1 h t (by simp))⟩
  simp only [tableBytesOf, List.length_take, List.length_drop]
  omega

/-- The entries of a valid set are stored as they were sent: nothing is cut off. -/
theorem SetOk.toNat_lutOf {p : List Byte} (h : SetOk p) (t : Fin 8) (x : Fin 16) :
    (lutOf p)[t][x].toNat = (p.getD (16 * t.val + x.val) 0).toNat := by
  have hle := (h.2 t).1 x
  simp only [getElem_lutOf, payloadByte, BitVec.extractLsb'_toNat, Nat.shiftRight_zero]
  exact Nat.mod_eq_of_lt (by omega)

theorem SetOk.permutations {p : List Byte} (h : SetOk p) : Permutations (lutOf p) := by
  intro t x y hxy
  have hb := congrArg BitVec.toNat hxy
  rw [h.toNat_lutOf, h.toNat_lutOf] at hb
  exact (h.2 t).2 x y (BitVec.eq_of_toNat_eq hb)

/-! ### The invariant, operation by operation -/

theorem inv_enterReset (s : State) : Inv (enterReset s) where
  tables := nofun
  rounds := Nat.zero_le _
  framing := ⟨rfl, rfl⟩
  capacity := Nat.zero_le _
  responses := nofun

/-- With the invariant, opening a frame in IDLE changes nothing: RXBUF is empty already. -/
theorem Inv.openFrame_eq {s : State} (h : Inv s) (hp : s.phase = .idle) : openFrame s = s := by
  have hf := h.framing
  simp only [PhaseConsistent, hp] at hf
  rw [openFrame, ← hf.1]

/-- Before the frame is whole no response is in progress. -/
theorem Inv.tx_eq_none {s : State} (h : Inv s) (hp : s.phase = .idle ∨ s.phase = .recv) :
    s.tx = none := by
  have hf := h.framing
  rcases hp with hp | hp <;> simp only [PhaseConsistent, hp] at hf
  · exact hf.2
  · exact hf.2.2

theorem length_rxbuf_receive_le (s : State) : (receive s).rxbuf.length ≤ 257 := by
  have := frameLength_le (s.rxbuf ++ s.cmd)
  rw [receive_rxbuf, List.length_take]
  omega

/-- An incomplete frame, of at least one byte, waits in RECV. -/
theorem inv_receive_incomplete {s : State} (h : Inv s) (htx : s.tx = none) (hc : s.cmd ≠ [])
    (hs : (s.rxbuf ++ s.cmd).length < frameLength (s.rxbuf ++ s.cmd)) : Inv (receive s) where
  tables := h.tables
  rounds := h.rounds
  framing := by
    have hall : (receive s).rxbuf = s.rxbuf ++ s.cmd := by
      rw [receive_rxbuf, List.take_of_length_le (by omega)]
    simp only [PhaseConsistent, receive_phase, hall]
    exact ⟨by simp [hc], hs, htx⟩
  capacity := length_rxbuf_receive_le s
  responses := h.responses

/-- A whole frame in RXBUF, and nothing beyond it, goes to EXEC. -/
theorem inv_receive_whole {s : State} (h : Inv s) (htx : s.tx = none)
    (hw : frameLength (s.rxbuf ++ s.cmd) ≤ (s.rxbuf ++ s.cmd).length) :
    Inv { receive s with phase := .exec } where
  tables := h.tables
  rounds := h.rounds
  framing := by
    refine ⟨?_, htx⟩
    rw [receive_rxbuf, frameLength_take, List.length_take]
    omega
  capacity := length_rxbuf_receive_le s
  responses := h.responses

/-- Whatever a command answers is a listed response (30_encoding.md R60, R62). -/
theorem coreResponse_of_effect {i : Instr} {s u : State} {r : Response} (h : Effect i s r u) :
    CoreResponse r := by
  cases h with
  | error e he => rcases he with rfl | rfl | rfl | rfl | rfl <;> rfl
  | looked y p hi hv => exact .inr (.inl ⟨y, rfl⟩)
  | set p hi hl hv => exact .inl rfl
  | key p hi hl => exact .inl rfl
  | block dir p hi hl hs hk => exact .inr (.inr (length_storeBlock _))

/-- A command keeps the tables of a loaded set permutations: it writes a valid set or none
(10_state.md R24). -/
theorem tables_of_effect {i : Instr} {s u : State} {r : Response} (hu : Effect i s r u)
    (h : s.sboxValid = true → Permutations s.lut) : u.sboxValid = true → Permutations u.lut := by
  cases hu with
  | error e he => exact h
  | looked y p hi hv => exact h
  | set p hi hl hv => exact fun _ => (setOk_of_validSet hl hv).permutations
  | key p hi hl => exact h
  | block dir p hi hl hs hk => exact h

/-- A free value of RC is within 0 to 32 as well (10_state.md R16). -/
theorem rounds_releaseWork_le (s : State) : (releaseWork s).rc.toNat ≤ 32 := by
  have := (Config.freeRounds s.freeCount).isLt
  rw [releaseWork_rc, BitVec.toNat_ofNat]
  omega

theorem rounds_of_effect {i : Instr} {s u : State} {r : Response} (hu : Effect i s r u)
    (h : s.rc.toNat ≤ 32) : u.rc.toNat ≤ 32 := by
  cases hu with
  | error e he => exact h
  | looked y p hi hv => exact h
  | set p hi hl hv => exact h
  | key p hi hl => exact h
  | block dir p hi hl hs hk => exact rounds_releaseWork_le s

/-- The rule of a command, applied to the frame in RXBUF, leaves its response in progress. -/
theorem inv_answer {i : Instr} {s u : State} {r : Response} (h : Inv s) (hp : s.phase = .exec)
    (hu : Effect i s r u) : Inv (answer r u) := by
  obtain ⟨-, -, -, hrsp, hrx⟩ := hu.interface
  have hf := h.framing
  simp only [PhaseConsistent, hp] at hf
  exact {
    tables := by simpa using tables_of_effect hu h.tables
    rounds := by simpa using rounds_of_effect hu h.rounds
    framing := ⟨by simpa [hrx] using hf.1, r, rfl, coreResponse_of_effect hu⟩
    capacity := by simpa [hrx] using h.capacity
    responses := by simpa [hrsp] using h.responses }

/-- The response that leaves in RESP is a listed one. -/
theorem inv_deliver {s : State} (h : Inv s) (hp : s.phase = .resp) : Inv (deliver s) where
  tables := h.tables
  rounds := h.rounds
  framing := ⟨rfl, rfl⟩
  capacity := by simp
  responses := by
    have hf := h.framing
    simp only [PhaseConsistent, hp] at hf
    obtain ⟨-, r, htx, hr⟩ := hf
    intro q hq
    simp only [deliver_rsp, htx, Option.toList_some, List.mem_append, List.mem_singleton] at hq
    rcases hq with hq | rfl
    · exact h.responses q hq
    · exact hr

theorem inv_handOver {s : State} (h : Inv s) (hp : s.phase = .resp) : Inv (handOver s) := by
  unfold handOver
  split
  · exact inv_deliver h hp
  · exact h

/-- Taking bytes of a frame, and executing it when it is whole, keeps the invariant. -/
theorem inv_taken {s u : State} (h : Inv s) (hp : s.phase = .idle ∨ s.phase = .recv)
    (hc : s.cmd ≠ []) (ht : Taken s u) : Inv u := by
  have htx := h.tx_eq_none hp
  cases ht with
  | waits hs => exact inv_receive_incomplete h htx hc hs
  | runs i r u hw hd hu => exact inv_handOver (inv_answer (inv_receive_whole h htx hw) rfl hu) rfl

/-- Settles O40: the reset state is where reset enters. -/
theorem invariantAtReset : Obligations.InvariantAtReset := inv_enterReset State.reset

/-- Settles O41, by the cases of a step. -/
theorem stepKeepsTheInvariant : Obligations.StepKeepsTheInvariant := by
  intro s u h hstep
  cases step_cases hstep with
  | reset hr => exact inv_enterReset s
  | nothing hr hp hc => exact h
  | opened u hr hp hc ht =>
    rw [h.openFrame_eq hp] at ht
    exact inv_taken h (.inl hp) hc ht
  | continued u hr hp hc ht => exact inv_taken h (.inr hp) hc ht
  | executed i rest r u hr hp hd hu => exact inv_handOver (inv_answer h hp hu) rfl
  | delivered hr hp hrd => exact inv_deliver h hp

end Sys2Proof.Safety

namespace Sys2Proof.Machine

/-! ### States that agree on what the datapath reads -/

/-- The two states agree on everything the rounds read: LUT, K and the work registers. -/
structure SameDatapath (s t : State) : Prop where
  lut : s.lut = t.lut
  k : s.k = t.k
  n1 : s.n1 = t.n1
  n2 : s.n2 = t.n2
  rc : s.rc = t.rc
  dir : s.dir = t.dir

namespace SameDatapath

variable {s t : State}

theorem roundOutput_eq (h : SameDatapath s t) : roundOutput s = roundOutput t := by
  simp only [roundOutput, h.lut, h.k, h.n1, h.rc, h.dir]

theorem roundStep (h : SameDatapath s t) : SameDatapath (roundStep s) (roundStep t) where
  lut := h.lut
  k := h.k
  n1 := by simp only [roundStep_n1, h.n2, h.roundOutput_eq]
  n2 := h.n1
  rc := by simp only [roundStep_rc, h.rc]
  dir := h.dir

theorem runRounds (n : Nat) (h : SameDatapath s t) :
    SameDatapath (runRounds n s) (runRounds n t) := by
  induction n generalizing s t with
  | zero => exact h
  | succ n ih => exact ih h.roundStep

theorem lastRound (h : SameDatapath s t) : SameDatapath (lastRound s) (lastRound t) where
  lut := h.lut
  k := h.k
  n1 := h.n1
  n2 := by simp only [lastRound_n2, h.n2, h.roundOutput_eq]
  rc := by simp only [lastRound_rc, h.rc]
  dir := h.dir

theorem storeBlock_eq (h : SameDatapath s t) : storeBlock s = storeBlock t := by
  simp only [storeBlock, h.n1, h.n2]

end SameDatapath

/-- The result of a transform depends on LUT and K alone beside its operands; not on what the work
registers held before (43_block_transform.md R120). -/
theorem storeBlock_transform_congr (dir : Bool) (p : List Byte) {s t : State} (hl : s.lut = t.lut)
    (hk : s.k = t.k) : storeBlock (transform dir p s) = storeBlock (transform dir p t) := by
  have hload : SameDatapath (loadBlock p { s with dir := dir }) (loadBlock p { t with dir := dir }) :=
    ⟨hl, hk, rfl, rfl, rfl, rfl⟩
  exact (hload.runRounds _).lastRound.storeBlock_eq

end Sys2Proof.Machine

namespace Sys2Proof.Safety

open Sys2Proof.Machine

/-! ### Agreement, operation by operation -/

/-- The two outcomes are next states that agree, or the same fault. No step is refused. -/
inductive AgreeResult : Result → Result → Prop where
  | next {u v : State} (h : Agree u v) : AgreeResult (.next u) (.next v)
  | fault (f : Fault) : AgreeResult (.fault f) (.fault f)

section

variable {s t : State} (h : Agree s t)
include h

theorem agree_enterReset : Agree (enterReset s) (enterReset t) :=
  ⟨rfl, fun _ => rfl, rfl, fun _ => rfl, rfl, rfl, rfl, h.cmd, rfl, h.rst, h.rspReady⟩

theorem agree_openFrame : Agree (openFrame s) (openFrame t) := { h with rxbuf := rfl }

theorem agree_receive : Agree (receive s) (receive t) :=
  { h with
    phase := rfl
    rxbuf := by simp only [receive_rxbuf, h.rxbuf, h.cmd]
    cmd := by simp only [receive_cmd, h.rxbuf, h.cmd] }

theorem agree_deliver : Agree (deliver s) (deliver t) :=
  { h with
    phase := rfl
    rxbuf := rfl
    tx := rfl
    rsp := by simp only [deliver_rsp, h.rsp, h.tx] }

theorem agree_handOver : Agree (handOver s) (handOver t) := by
  unfold handOver
  rw [← h.rspReady]
  split
  · exact agree_deliver h
  · exact h

theorem agree_answer (r : Response) : Agree (answer r s) (answer r t) :=
  { h with phase := rfl, tx := rfl }

theorem agree_commitSet (p : List Byte) : Agree (commitSet p s) (commitSet p t) :=
  { h with sboxValid := rfl, lut := fun _ => rfl }

theorem agree_commitKey (p : List Byte) : Agree (commitKey p s) (commitKey p t) :=
  { h with keyValid := rfl, k := fun _ => rfl }

theorem agree_releaseWork : Agree (releaseWork s) (releaseWork t) := { h with }

theorem agree_raise (e : Status) : AgreeResult (raise e s) (raise e t) :=
  .next (agree_answer h _)

theorem agree_respondOk (p : List Byte) : AgreeResult (respondOk p s) (respondOk p t) :=
  .next (agree_answer h _)

/-! ### Agreement, command by command -/

theorem agree_execSboxLoad (p : List Byte) : AgreeResult (execSboxLoad p s) (execSboxLoad p t) := by
  unfold execSboxLoad
  split
  · exact agree_raise h _
  · split
    · exact agree_respondOk (agree_commitSet h p) _
    · exact agree_raise h _

/-- A lookup reads LUT only where SBOX_VALID = 1. -/
theorem agree_execSboxLookup (p : List Byte) :
    AgreeResult (execSboxLookup p s) (execSboxLookup p t) := by
  unfold execSboxLookup setLoaded
  rw [← h.sboxValid]
  split
  · exact agree_raise h _
  · split
    · exact agree_raise h _
    · split
      · rw [← h.lut ‹_›]
        exact agree_respondOk h _
      · exact agree_raise h _

theorem agree_execKeyLoad (p : List Byte) : AgreeResult (execKeyLoad p s) (execKeyLoad p t) := by
  unfold execKeyLoad
  split
  · exact agree_raise h _
  · exact agree_respondOk (agree_commitKey h p) _

/-- A transform reads LUT and K only where both flags are 1, and overwrites the work registers before
it reads them. -/
theorem agree_execTransform (op : Byte) (p : List Byte) :
    AgreeResult (execTransform op p s) (execTransform op p t) := by
  have hconf : configured t = configured s := by
    rw [configured, configured, h.sboxValid, h.keyValid]
  unfold execTransform
  rw [hconf]
  split
  · exact agree_raise h _
  · split
    · rename_i hc
      obtain ⟨hs, hk⟩ := Bool.and_eq_true_iff.1 hc
      simp only [releaseWork_transform, storeBlock_transform_congr _ p (h.lut hs) (h.k hk)]
      exact agree_respondOk (agree_releaseWork h) _
    · exact agree_raise h _

theorem agree_exec (i : Instr) : AgreeResult (exec i s) (exec i t) := by
  cases i with
  | sboxLoad p => exact agree_execSboxLoad h p
  | sboxLookup p => exact agree_execSboxLookup h p
  | keyLoad p => exact agree_execKeyLoad h p
  | encrypt p => exact agree_execTransform h 0x04 p
  | decrypt p => exact agree_execTransform h 0x05 p
  | reserved00 p => exact agree_raise h _
  | reserved06 low p => exact agree_raise h _
  | reserved08 low p => exact agree_raise h _
  | reserved10 low p => exact agree_raise h _
  | reserved20 low p => exact agree_raise h _
  | reserved40 low p => exact agree_raise h _
  | reserved80 low p => exact agree_raise h _

/-! ### Agreement through a step -/

theorem agree_runFrame : AgreeResult (runFrame s) (runFrame t) := by
  unfold runFrame
  rw [← h.rxbuf]
  cases hd : decode s.rxbuf with
  | error e => exact .fault _
  | ok d =>
    obtain ⟨i, rest⟩ := d
    obtain ⟨_, _, hs, -⟩ := exec_effect i s
    obtain ⟨_, _, ht, -⟩ := exec_effect i t
    have he := agree_exec h i
    rw [hs, ht] at he
    cases he with
    | next hu =>
      simp only [hs, ht]
      exact .next (agree_handOver hu)

theorem agree_takeFrame : AgreeResult (takeFrame s) (takeFrame t) := by
  have hr := agree_receive h
  have hwhole : frameWhole (receive t).rxbuf = frameWhole (receive s).rxbuf := by rw [hr.rxbuf]
  simp only [takeFrame, hwhole]
  split
  · exact agree_runFrame { hr with phase := rfl }
  · exact .next hr

theorem agree_step : AgreeResult (step s) (step t) := by
  unfold step cycle
  rw [← h.rst, ← h.phase, ← h.cmd, ← h.rspReady]
  split
  · exact .next (agree_enterReset h)
  · cases s.phase with
    | idle =>
      dsimp only
      split
      · exact .next h
      · exact agree_takeFrame (agree_openFrame h)
    | recv =>
      dsimp only
      split
      · exact .fault _
      · exact agree_takeFrame h
    | exec => exact agree_runFrame h
    | resp =>
      dsimp only
      split
      · exact .next (agree_deliver h)
      · exact .fault _

end

/-- Settles O43: every operation of a step keeps agreement, and reads LUT and K only behind their
flags. -/
theorem valuelessContentsAreNeverObserved : Obligations.ValuelessContentsAreNeverObserved := by
  intro s t h
  have hstep := agree_step h
  revert hstep
  generalize step s = a
  generalize step t = b
  rintro (huv | f)
  · exact ⟨_, rfl, huv⟩
  · rfl

end Sys2Proof.Safety

namespace Sys2Proof.Machine

/-! ### The round counter -/

theorem runRounds_rc (n : Nat) (s : State) : (runRounds n s).rc = s.rc + BitVec.ofNat 6 n := by
  induction n with
  | zero => simp [runRounds]
  | succ n ih =>
    rw [runRounds_succ_last, roundStep_rc, ih, BitVec.ofNat_add, BitVec.add_assoc]
    rfl

/-- RC counts the rounds since LOAD_BLOCK cleared it. -/
theorem runRounds_loadBlock_rc (n : Nat) (p : List Byte) (s : State) :
    (runRounds n (loadBlock p s)).rc = BitVec.ofNat 6 n := by
  simp [runRounds_rc]

/-- Settles O16, by the count of rounds. -/
theorem roundCounterCountsTheRounds : Obligations.RoundCounterCountsTheRounds := by
  refine fun dir p s => ⟨fun n hn => ?_, ?_⟩
  · rw [runRounds_loadBlock_rc, BitVec.toNat_ofNat]
    exact Nat.mod_eq_of_lt (by omega)
  · rw [transform, lastRound_rc, runRounds_loadBlock_rc]
    rfl

/-! ### What each command writes -/

/-- Settles O21, by the effects of a command. -/
theorem commandFrames : Obligations.CommandFrames := by
  intro i s u h
  obtain ⟨r, v, he, hv⟩ := exec_effect i s
  obtain rfl : answer r v = u := by simpa [he] using h
  cases hv with
  | error e _ => cases i <;> rfl
  | looked y p hi _ => subst hi; rfl
  | set p hi _ _ => subst hi; rfl
  | key p hi _ => subst hi; rfl
  | block dir p hi _ _ _ => subst hi; cases dir <;> rfl

end Sys2Proof.Machine

namespace Sys2Proof

/-! ### The frame a command was decoded from -/

theorem opcodeOf_decodeOpcode (op : Byte) (p : List Byte) : opcodeOf (decodeOpcode op p) = op := by
  simp only [decodeOpcode, apply_ite opcodeOf]
  simp only [opcodeOf]
  revert op
  decide

/-- A decoded command is the one whose frame the bytes begin with. -/
theorem encode_append_of_decode {bytes rest : List Byte} {i : Instr}
    (h : decode bytes = .ok (i, rest)) : bytes = encode i ++ rest := by
  rcases bytes with - | ⟨op, - | ⟨len, tail⟩⟩
  · simp [decode] at h
  · simp [decode] at h
  · simp only [decode] at h
    split at h
    · rename_i hl
      obtain ⟨rfl, rfl⟩ : decodeOpcode op (tail.take len.toNat) = i ∧ tail.drop len.toNat = rest := by
        simpa using h
      simp [encode, opcodeOf_decodeOpcode, hl]
    · simp at h

end Sys2Proof

namespace Sys2Proof.Machine

@[simp] theorem handOver_lut (s : State) : (handOver s).lut = s.lut := by
  unfold handOver
  split <;> rfl

@[simp] theorem handOver_sboxValid (s : State) : (handOver s).sboxValid = s.sboxValid := by
  unfold handOver
  split <;> rfl

@[simp] theorem handOver_k (s : State) : (handOver s).k = s.k := by
  unfold handOver
  split <;> rfl

@[simp] theorem handOver_keyValid (s : State) : (handOver s).keyValid = s.keyValid := by
  unfold handOver
  split <;> rfl

end Sys2Proof.Machine

namespace Sys2Proof.Safety

open Sys2Proof.Machine

/-! ### Who writes LUT and K -/

/-- From `s` to `u` LUT and SBOX_VALID are as they were, or hold the valid set of the SBOX_LOAD frame
that the bytes begin with (10_state.md R13, R14). -/
def LutLoaded (bytes : List Byte) (s u : State) : Prop :=
  (u.lut = s.lut ∧ u.sboxValid = s.sboxValid) ∨
    ∃ p rest, SetOk p ∧ bytes = encode (.sboxLoad p) ++ rest ∧ u.sboxValid = true ∧
      ∀ (t : Fin 8) (x : Fin 16),
        u.lut[t][x].toNat = (p.getD (16 * t.val + x.val) 0).toNat

/-- From `s` to `u` K and KEY_VALID are as they were, or hold the key of the KEY_LOAD frame that the
bytes begin with (10_state.md R12, R15). -/
def KeyLoaded (bytes : List Byte) (s u : State) : Prop :=
  (u.k = s.k ∧ u.keyValid = s.keyValid) ∨
    ∃ p rest, p.length = 32 ∧ bytes = encode (.keyLoad p) ++ rest ∧ u.keyValid = true ∧
      ∀ j : Fin 8, u.k[j] = payloadWord p (4 * j.val)

theorem LutLoaded.keeps_flag {bytes : List Byte} {s u : State} (h : LutLoaded bytes s u)
    (hs : s.sboxValid = true) : u.sboxValid = true := by
  rcases h with ⟨-, hv⟩ | ⟨_, _, -, -, hv, -⟩
  · rw [hv, hs]
  · exact hv

theorem KeyLoaded.keeps_flag {bytes : List Byte} {s u : State} (h : KeyLoaded bytes s u)
    (hs : s.keyValid = true) : u.keyValid = true := by
  rcases h with ⟨-, hv⟩ | ⟨_, _, -, -, hv, -⟩
  · rw [hv, hs]
  · exact hv

/-- The command of a frame writes LUT only as a successful SBOX_LOAD, K only as a successful
KEY_LOAD. -/
theorem loaded_of_effect {i : Instr} {s u : State} {r : Response} (h : Effect i s r u)
    (rest : List Byte) :
    LutLoaded (encode i ++ rest) s u ∧ KeyLoaded (encode i ++ rest) s u := by
  cases h with
  | error e he => exact ⟨.inl ⟨rfl, rfl⟩, .inl ⟨rfl, rfl⟩⟩
  | looked y p hi hv => exact ⟨.inl ⟨rfl, rfl⟩, .inl ⟨rfl, rfl⟩⟩
  | set p hi hl hv =>
    have hset := setOk_of_validSet hl hv
    exact ⟨.inr ⟨p, rest, hset, by rw [hi], rfl, hset.toNat_lutOf⟩, .inl ⟨rfl, rfl⟩⟩
  | key p hi hl =>
    exact ⟨.inl ⟨rfl, rfl⟩, .inr ⟨p, rest, hl, by rw [hi], rfl, getElem_keyWords p⟩⟩
  | block dir p hi hl hs hk => exact ⟨.inl ⟨rfl, rfl⟩, .inl ⟨rfl, rfl⟩⟩

/-- Answering and handing over the response write neither array and neither flag. -/
theorem loaded_handOver_answer {bytes : List Byte} {s u : State} (r : Response)
    (h : LutLoaded bytes s u ∧ KeyLoaded bytes s u) :
    LutLoaded bytes s (handOver (answer r u)) ∧ KeyLoaded bytes s (handOver (answer r u)) := by
  simpa only [LutLoaded, KeyLoaded, handOver_lut, handOver_sboxValid, handOver_k,
    handOver_keyValid, answer_lut, answer_sboxValid, answer_k, answer_keyValid] using h

theorem loaded_of_taken {s u : State} (h : Taken s u) :
    LutLoaded (s.rxbuf ++ s.cmd) s u ∧ KeyLoaded (s.rxbuf ++ s.cmd) s u := by
  cases h with
  | waits hs => exact ⟨.inl ⟨rfl, rfl⟩, .inl ⟨rfl, rfl⟩⟩
  | runs i r u hw hd hu =>
    have hbytes : s.rxbuf ++ s.cmd = encode i ++ (receive s).cmd := by
      rw [← List.append_nil (encode i), ← encode_append_of_decode hd]
      exact (List.take_append_drop _ _).symm
    rw [hbytes]
    exact loaded_handOver_answer r (loaded_of_effect hu _)

/-- A step without reset, from a state that meets the invariant. -/
theorem loaded_of_step {s u : State} (h : Inv s) (hrst : s.rst = false) (hstep : step s = .next u) :
    LutLoaded (s.rxbuf ++ s.cmd) s u ∧ KeyLoaded (s.rxbuf ++ s.cmd) s u := by
  cases step_cases hstep with
  | reset hr => simp [hrst] at hr
  | nothing hr hp hc => exact ⟨.inl ⟨rfl, rfl⟩, .inl ⟨rfl, rfl⟩⟩
  | opened u hr hp hc ht =>
    rw [h.openFrame_eq hp] at ht
    exact loaded_of_taken ht
  | continued u hr hp hc ht => exact loaded_of_taken ht
  | executed i rest r u hr hp hd hu =>
    rw [encode_append_of_decode hd, List.append_assoc]
    exact loaded_handOver_answer r (loaded_of_effect hu _)
  | delivered hr hp hrd => exact ⟨.inl ⟨rfl, rfl⟩, .inl ⟨rfl, rfl⟩⟩

/-- Settles O42: the two arrays by the cases of a step, the flags from them. -/
theorem onlySuccessfulLoadsWrite : Obligations.OnlySuccessfulLoadsWrite := by
  intro s u h hrst hstep
  obtain ⟨hlut, hkey⟩ := loaded_of_step h hrst hstep
  exact ⟨hlut, hkey, hlut.keeps_flag, hkey.keeps_flag⟩

end Sys2Proof.Safety

/-! SUPPORT. The proofs of the statements about memory (20_memory.md): the byte order of words, the
frame a step takes, and the command stream as the fold of its commands. -/

namespace Sys2Proof

/-! ### The command an encoded frame holds -/

/-- Each opcode selects its own row, with the row's free bits (30_encoding.md R52, R61). In a row with
free bits what remains, once the other rows' commands are ruled out, is a condition on these bits
alone, whatever the payload. -/
theorem decodeOpcode_opcodeOf (i : Instr) : decodeOpcode (opcodeOf i) i.payload = i := by
  cases i with
  | sboxLoad p => rfl
  | sboxLookup p => rfl
  | keyLoad p => rfl
  | encrypt p => rfl
  | decrypt p => rfl
  | reserved00 p => rfl
  | _ low p =>
    simp only [decodeOpcode, ite_eq_iff, reduceCtorEq, and_false, false_or, or_false,
      Instr.payload, and_true, Instr.reserved06.injEq, Instr.reserved08.injEq,
      Instr.reserved10.injEq, Instr.reserved20.injEq, Instr.reserved40.injEq,
      Instr.reserved80.injEq]
    simp only [opcodeOf]
    revert low
    decide

/-- A frame is decoded to its command, and exactly its bytes are consumed (30_encoding.md R54). -/
theorem decode_encode_append {i : Instr} (h : i.wellFormed = true) (rest : List Byte) :
    decode (encode i ++ rest) = .ok (i, rest) := by
  have hle := (wellFormed_iff i).1 h
  have hlen : (BitVec.ofNat 8 i.payload.length).toNat = i.payload.length := by
    rw [BitVec.toNat_ofNat]
    exact Nat.mod_eq_of_lt (by omega)
  simp [encode, decode, hlen, decodeOpcode_opcodeOf]

end Sys2Proof

namespace Sys2Proof.Machine

/-! ### A step on a whole frame -/

/-- `s` in PHASE = EXEC with this frame in RXBUF and these bytes still to be taken. -/
def inExec (frame rest : List Byte) (s : State) : State :=
  { s with rxbuf := frame, cmd := rest, phase := .exec }

/-- Taking bytes that begin with a whole frame leaves that frame in RXBUF and runs it. -/
theorem takeFrame_encode {i : Instr} {rest : List Byte} {s : State} (hi : i.wellFormed = true)
    (h : s.rxbuf ++ s.cmd = encode i ++ rest) :
    takeFrame s = runFrame (inExec (encode i) rest s) := by
  have hlen := frameLength_encode hi
  have hrx : (receive s).rxbuf = encode i := by
    rw [receive_rxbuf, h, hlen, List.take_left]
  have hcmd : (receive s).cmd = rest := by
    rw [receive_cmd, h, hlen, List.drop_left]
  have hwhole : frameWhole (receive s).rxbuf = true := by
    rw [frameWhole_iff, hrx, ← List.append_nil (encode i), hlen, List.append_nil]
  simp only [takeFrame, hwhole, if_true, inExec, ← hrx, ← hcmd]
  rfl

/-- In EXEC a whole frame is answered by its command's rule, and the response is handed over. -/
theorem runFrame_encode {i : Instr} {s t : State} (hi : i.wellFormed = true)
    (hrx : s.rxbuf = encode i) (h : exec i s = .next t) : runFrame s = .next (handOver t) := by
  have hd : decode s.rxbuf = .ok (i, []) := by
    rw [hrx, ← List.append_nil (encode i), decode_encode_append hi]
  simp only [runFrame, hd, h]

theorem encode_append_ne_nil (i : Instr) (rest : List Byte) : encode i ++ rest ≠ [] :=
  List.cons_ne_nil _ _

/-- In IDLE a step takes the whole frame that was sent and runs it. -/
theorem step_idle_encode {i : Instr} {rest : List Byte} {s : State} (hi : i.wellFormed = true)
    (hrst : s.rst = false) (hp : s.phase = .idle) (hc : s.cmd = encode i ++ rest) :
    step s = runFrame (inExec (encode i) rest s) := by
  rw [step_idle hrst hp (hc ▸ encode_append_ne_nil i rest), takeFrame_encode (s := openFrame s) hi hc]
  rfl

/-- Settles O34: in each of the three phases the step runs the frame from EXEC. -/
theorem stepRunsTheDecodedCommand : Obligations.StepRunsTheDecodedCommand := by
  intro s i rest hi hrst hframe
  have hstep : step s = runFrame (inExec (encode i) rest s) := by
    rcases hframe with ⟨hp, hc⟩ | ⟨hp, hc, hbytes⟩ | ⟨hp, hrx, hc⟩
    · exact step_idle_encode hi hrst hp hc
    · rw [step_recv hrst hp hc, takeFrame_encode hi hbytes]
    · rw [step_exec hrst hp, inExec, ← hrx, ← hc, ← hp]
  obtain ⟨r, u, he, hu⟩ := exec_effect i (inExec (encode i) rest s)
  obtain ⟨hready, -⟩ := hu.interface
  have hhand : handOver (answer r u) =
      if s.rspReady then deliver (answer r u) else answer r u := by
    rw [handOver, answer_rspReady, hready]
    rfl
  refine ⟨answer r u, he, ?_⟩
  rw [hstep, runFrame_encode hi rfl he, hhand]
  rfl

/-! ### The rule of a command does not look at the frame -/

/-- `s` with these bytes in RXBUF and these still to be taken. -/
def withBytes (frame rest : List Byte) (s : State) : State := { s with rxbuf := frame, cmd := rest }

/-- A change of the next state of an outcome. -/
def mapNext (f : State → State) : Result → Result
  | .next t => .next (f t)
  | .fault e => .fault e
  | .refused e => .refused e

section

variable (frame rest : List Byte)

theorem execSboxLoad_inExec (p : List Byte) (s : State) :
    execSboxLoad p (inExec frame rest s) = mapNext (withBytes frame rest) (execSboxLoad p s) := by
  unfold execSboxLoad
  split
  · rfl
  · split <;> rfl

theorem execSboxLookup_inExec (p : List Byte) (s : State) :
    execSboxLookup p (inExec frame rest s) =
      mapNext (withBytes frame rest) (execSboxLookup p s) := by
  have hset : setLoaded (inExec frame rest s) = setLoaded s := rfl
  unfold execSboxLookup
  rw [hset]
  split
  · rfl
  · split
    · rfl
    · split <;> rfl

theorem execKeyLoad_inExec (p : List Byte) (s : State) :
    execKeyLoad p (inExec frame rest s) = mapNext (withBytes frame rest) (execKeyLoad p s) := by
  unfold execKeyLoad
  split <;> rfl

theorem execTransform_inExec (op : Byte) (p : List Byte) (s : State) :
    execTransform op p (inExec frame rest s) =
      mapNext (withBytes frame rest) (execTransform op p s) := by
  have hconf : configured (inExec frame rest s) = configured s := rfl
  have hstore := storeBlock_transform_congr (directionOf op) p
    (s := inExec frame rest s) (t := s) rfl rfl
  unfold execTransform
  simp only [hconf, hstore, releaseWork_transform]
  split
  · rfl
  · split <;> rfl

/-- A command answers the same and writes the same whatever is in RXBUF and in the command stream. -/
theorem exec_inExec (i : Instr) (s : State) :
    exec i (inExec frame rest s) = mapNext (withBytes frame rest) (exec i s) := by
  cases i with
  | sboxLoad p => exact execSboxLoad_inExec frame rest p s
  | sboxLookup p => exact execSboxLookup_inExec frame rest p s
  | keyLoad p => exact execKeyLoad_inExec frame rest p s
  | encrypt p => exact execTransform_inExec frame rest 0x04 p s
  | decrypt p => exact execTransform_inExec frame rest 0x05 p s
  | reserved00 p => rfl
  | reserved06 low p => rfl
  | reserved08 low p => rfl
  | reserved10 low p => rfl
  | reserved20 low p => rfl
  | reserved40 low p => rfl
  | reserved80 low p => rfl

end

end Sys2Proof.Machine

namespace Sys2Proof.Safety

open Sys2Proof.Machine

/-! ### The command stream -/

/-- A command on a core between commands, its response delivered, leaves the core between commands
with one response more. -/
theorem Ready.deliver_answer {i : Instr} {s u : State} {r : Response} (h : Ready s)
    (hu : Effect i s r u) :
    Ready (deliver (answer r u)) ∧ (deliver (answer r u)).rsp = s.rsp ++ [r] := by
  obtain ⟨hready, hrst, hcmd, hrsp, -⟩ := hu.interface
  refine ⟨⟨?_, rfl, rfl, rfl, ?_, ?_⟩, ?_⟩
  · exact hrst.trans h.released
  · exact hcmd.trans h.nothingSent
  · exact hready.trans h.reading
  · simp [hrsp]

/-- On a core between commands a step takes one whole frame of the stream: it is the command's rule
on the state before the frame was sent, its response delivered, and leaves the bytes after the frame
to be taken. -/
theorem Ready.step_hostSend {i : Instr} {s u : State} {r : Response} (h : Ready s)
    (hi : i.wellFormed = true) (he : exec i s = .next (answer r u)) (hu : Effect i s r u)
    (rest : List Byte) :
    step (hostSend (encode i ++ rest) s) = .next (hostSend rest (deliver (answer r u))) := by
  obtain ⟨hready, -, hcmd, -, -⟩ := hu.interface
  have hstep : step (hostSend (encode i ++ rest) s) = runFrame (inExec (encode i) rest s) :=
    step_idle_encode hi h.released h.idle (by rw [hostSend_cmd, h.nothingSent, List.nil_append])
  have hexec : exec i (inExec (encode i) rest s) =
      .next (withBytes (encode i) rest (answer r u)) := by
    rw [exec_inExec, he]
    rfl
  have hreads : (withBytes (encode i) rest (answer r u)).rspReady = true := hready.trans h.reading
  rw [hstep, runFrame_encode hi rfl hexec, handOver, if_pos hreads, hostSend, deliver_cmd,
    answer_cmd, hcmd, h.nothingSent, List.nil_append]
  rfl

/-- A run begins with its first step. -/
theorem run_succ_of_step {s t : State} (h : step s = .next t) (n : Nat) :
    Host.Core.run Sys2Proof.core (n + 1) s = Host.Core.run Sys2Proof.core n t := by
  have h : Sys2Proof.core.step s = .next t := h
  simp only [Host.Core.run, h]

theorem afterCommands_cons {i : Instr} {s t : State} (h : exec i s = .next t) (is : List Instr) :
    afterCommands (i :: is) s = afterCommands is (deliver t) := by
  rw [afterCommands, h]

/-- Settles O44, by induction on the commands: a step takes the first frame and leaves a core between
commands with the other frames sent. -/
theorem streamIsTheFoldOfItsCommands : Obligations.StreamIsTheFoldOfItsCommands := by
  intro is rest s his h
  induction is generalizing s with
  | nil => exact ⟨rfl, rfl, h⟩
  | cons i is ih =>
    obtain ⟨hi, his⟩ := List.forall_mem_cons.1 his
    obtain ⟨r, u, he, hu⟩ := exec_effect i s
    obtain ⟨hready, hrsp⟩ := h.deliver_answer hu
    obtain ⟨hrun, hlen, hafter⟩ := ih _ his hready
    have hstep := h.step_hostSend hi he hu ((is.map encode).flatten ++ rest)
    rw [afterCommands_cons he]
    refine ⟨?_, ?_, hafter⟩
    · rw [List.map_cons, List.flatten_cons, List.append_assoc, List.length_cons,
        run_succ_of_step hstep, hrun]
    · rw [hlen, hrsp, List.length_append, List.length_cons, List.length_cons, List.length_nil]
      omega

end Sys2Proof.Safety

namespace Sys2Proof.Machine

/-! ### The byte order of words -/

/-- BYTES32 takes apart what LE32 puts together (20_memory.md R32, R36). -/
theorem bytes32_le32 (b0 b1 b2 b3 : Byte) : bytes32 (le32 b0 b1 b2 b3) = [b0, b1, b2, b3] := by
  have hbyte (b : Byte) (j : Nat) (h : (le32 b0 b1 b2 b3).toNat / 2 ^ j % 2 ^ 8 = b.toNat) :
      (le32 b0 b1 b2 b3).extractLsb' j 8 = b := by
    apply BitVec.eq_of_toNat_eq
    rw [BitVec.extractLsb'_toNat, Nat.shiftRight_eq_div_pow, h]
  have h0 := b0.isLt
  have h1 := b1.isLt
  have h2 := b2.isLt
  have h3 := b3.isLt
  rw [toNat_le32] at hbyte
  rw [bytes32, hbyte b0 0, hbyte b1 8, hbyte b2 16, hbyte b3 24] <;> omega

/-- LE32 puts together what BYTES32 takes apart. -/
theorem payloadWord_bytes32 (v : Word) : payloadWord (bytes32 v) 0 = v := by
  apply BitVec.eq_of_toNat_eq
  have hv := v.isLt
  simp only [payloadWord, toNat_le32, payloadByte, bytes32, List.getD_cons_zero,
    List.getD_cons_succ, BitVec.extractLsb'_toNat, Nat.shiftRight_eq_div_pow]
  omega

end Sys2Proof.Machine

namespace Sys2Proof.Safety

open Sys2Proof.Machine

/-- Settles O7: the words by LE32, the response of a transform by `exec_block`. -/
theorem wordsAreLittleEndian : Obligations.WordsAreLittleEndian := by
  refine ⟨fun b0 b1 b2 b3 => ⟨toNat_le32 b0 b1 b2 b3, bytes32_le32 b0 b1 b2 b3⟩,
    payloadWord_bytes32, fun p _ j => getElem_keyWords p j, fun p s _ => ⟨rfl, rfl⟩,
    fun s => rfl, fun dir p s hl hs hk => ?_⟩
  exact ⟨_, exec_block dir hl hs hk, rfl, rfl, rfl⟩

end Sys2Proof.Safety

/-! SUPPORT. The proofs of the statements about the encoding (30_encoding.md): frames and the commands
they carry, the opcode map, the reserved opcodes, and the response frames. -/

namespace Sys2Proof

/-! ### Frames -/

/-- Settles O30, by `decode_encode_append`. -/
theorem encodedCommandsDecode : Obligations.EncodedCommandsDecode :=
  fun _ rest h => decode_encode_append h rest

/-- A frame has 2 + LEN bytes; a LEN byte that has not arrived counts as 0 (30_encoding.md R64). -/
theorem frameLength_eq (bytes : List Byte) : frameLength bytes = 2 + (bytes.getD 1 0).toNat := by
  rcases bytes with - | ⟨op, - | ⟨len, rest⟩⟩ <;> rfl

/-- Bytes begin with the frame of at most one well-formed command (30_encoding.md R54). -/
theorem encode_append_inj {i j : Instr} {rest rest' : List Byte} (hi : i.wellFormed = true)
    (hj : j.wellFormed = true) (h : encode j ++ rest' = encode i ++ rest) : j = i ∧ rest' = rest := by
  have hd := decode_encode_append hj rest'
  rw [h, decode_encode_append hi] at hd
  cases hd
  exact ⟨rfl, rfl⟩

/-- Settles O31: either the bytes of the first frame have all arrived, or they have not. -/
theorem framingIsTotal : Obligations.FramingIsTotal := by
  intro bytes
  by_cases hwhole : frameLength bytes ≤ bytes.length
  · left
    obtain ⟨i, hd, hi⟩ := decode_whole hwhole
    have hbytes := encode_append_of_decode hd
    refine ⟨i, _, hd, hi, hbytes, ?_, fun j rest' hj hj' => ?_⟩
    · rw [← frameLength_encode hi, ← hbytes, frameLength_eq]
    · exact encode_append_inj hi hj (hj'.symm.trans hbytes)
  · right
    rw [Nat.not_le] at hwhole
    exact ⟨decode_short hwhole, .inr (frameLength_eq bytes ▸ hwhole)⟩

/-! ### The opcode map -/

/-- Each of the 256 opcodes is in one row of the table (30_encoding.md R52, R61). -/
theorem length_filter_selects (op : Byte) :
    (opcodeRows.filter fun row => row.selects op).length = 1 := by
  revert op
  decide

/-- Settles O32: the rows by enumeration, the selected command's opcode by `opcodeOf_decodeOpcode`. -/
theorem opcodeRowsTile : Obligations.OpcodeRowsTile :=
  fun op => ⟨length_filter_selects op, opcodeOf_decodeOpcode op⟩

/-- Settles O33: the decoder evaluates to each command. -/
theorem writtenOutFramesDecode : Obligations.WrittenOutFramesDecode :=
  ⟨rfl, rfl, rfl, rfl, rfl, rfl, rfl⟩

/-- OPCODE, LEN and LEN bytes of payload are the frame of the command the opcode selects
(30_encoding.md R50). -/
theorem encode_decodeOpcode {op len : Byte} {p : List Byte} (h : p.length = len.toNat) :
    encode (decodeOpcode op p) = op :: len :: p := by
  simp [encode, opcodeOf_decodeOpcode, h]

theorem wellFormed_decodeOpcode {op len : Byte} {p : List Byte} (h : p.length = len.toNat) :
    (decodeOpcode op p).wellFormed = true := by
  have := len.isLt
  rw [wellFormed_iff, payload_decodeOpcode]
  omega

end Sys2Proof

namespace Sys2Proof.Machine

/-! ### The reserved opcodes -/

/-- A command whose opcode is reserved raises IllegalCommand (30_encoding.md R61). -/
theorem exec_of_reserved {i : Instr} (h : (opcodeOf i).toNat = 0 ∨ 6 ≤ (opcodeOf i).toNat)
    (s : State) : exec i s = raise .illegalCommand s := by
  cases i with
  | sboxLoad p => simp [opcodeOf] at h
  | sboxLookup p => simp [opcodeOf] at h
  | keyLoad p => simp [opcodeOf] at h
  | encrypt p => simp [opcodeOf] at h
  | decrypt p => simp [opcodeOf] at h
  | reserved00 p => rfl
  | reserved06 low p => rfl
  | reserved08 low p => rfl
  | reserved10 low p => rfl
  | reserved20 low p => rfl
  | reserved40 low p => rfl
  | reserved80 low p => rfl

end Sys2Proof.Machine

namespace Sys2Proof.Safety

open Sys2Proof.Machine

/-- On a core between commands, an answered command that wrote nothing leaves one response more and
the bytes after its frame. -/
theorem Ready.hostSend_deliver_answer {s : State} (h : Ready s) (r : Response) (rest : List Byte) :
    hostSend rest (deliver (answer r s)) = { s with cmd := rest, rsp := s.rsp ++ [r] } := by
  obtain ⟨-, hphase, hrxbuf, htx, hcmd, -⟩ := h
  simp [hostSend, deliver, answer, hphase, hrxbuf, htx, hcmd]

/-- Settles O17: in the stream the bytes are the frame of the command that the reserved opcode
selects. -/
theorem reservedOpcodesAreIllegal : Obligations.ReservedOpcodesAreIllegal := by
  refine ⟨fun p s => ⟨rfl, fun _ => rfl, fun _ => rfl, fun _ => rfl, fun _ => rfl, fun _ => rfl,
    fun _ => rfl⟩, fun op len p rest s hop h hlen => ?_⟩
  have he : exec (decodeOpcode op p) s = raise .illegalCommand s :=
    exec_of_reserved (by rwa [opcodeOf_decodeOpcode]) s
  rw [← encode_decodeOpcode hlen,
    h.step_hostSend (wellFormed_decodeOpcode hlen) he (.error _ (by simp)),
    h.hostSend_deliver_answer]

end Sys2Proof.Safety

namespace Sys2Proof.Machine

/-! ### The response frames -/

section

variable {i : Instr} {s u : State} {r : Response}

/-- The bytes of whatever a command answers are a listed response frame (30_encoding.md R60, R62). -/
theorem Effect.responseBytes_listed (h : Effect i s r u) :
    responseBytes r = [0x00, 0x00] ∨ (∃ y : Nibble, responseBytes r = [0x00, 0x01, y.setWidth 8]) ∨
      (∃ b, b.length = 8 ∧ responseBytes r = 0x00 :: 0x08 :: b) ∨
      responseBytes r ∈ [[0x01, 0x00], [0x02, 0x00], [0x03, 0x00], [0x06, 0x00], [0x07, 0x00]] := by
  cases h with
  | error e he =>
    right; right; right
    rcases he with rfl | rfl | rfl | rfl | rfl <;> simp [responseBytes, statusCode]
  | looked y p hi hv => exact .inr (.inl ⟨y, rfl⟩)
  | set p hi hl hv => exact .inl rfl
  | key p hi hl => exact .inl rfl
  | block dir p hi hl hs hk => exact .inr (.inr (.inl ⟨_, length_storeBlock _, rfl⟩))

/-- On success each command answers its own number of result bytes (30_encoding.md R60). -/
theorem Effect.result_of_ok (h : Effect i s r u) (hok : r.status = .ok) (q : List Byte) :
    (i = .sboxLoad q → r.result = []) ∧ (i = .keyLoad q → r.result = []) ∧
      (i = .sboxLookup q → r.result.length = 1) ∧
      (i = .encrypt q → r.result.length = 8) ∧ (i = .decrypt q → r.result.length = 8) := by
  cases h with
  | error e he => subst hok; simp at he
  | looked y p hi hv => simp [hi]
  | set p hi hl hv => simp [hi]
  | key p hi hl => simp [hi]
  | block dir p hi hl hs hk => cases dir <;> simp [hi]

end

/-- Settles O20, by the effects of a command. -/
theorem responsesHaveTheListedShapes : Obligations.ResponsesHaveTheListedShapes := by
  intro i s
  obtain ⟨r, u, he, hu⟩ := exec_effect i s
  exact ⟨answer r u, r, he, rfl, hu.responseBytes_listed, hu.result_of_ok⟩

end Sys2Proof.Machine

/-! SUPPORT. The proofs of the statements about the tables (40_sbox.md): the forms of the
permutation check, the load and the lookup, and the packed tables. -/

namespace Sys2Proof.Machine

/-! ### The forms of the permutation check -/

theorem mem_nibbleBytes {b : Byte} : b ∈ nibbleBytes ↔ b.toNat ≤ 15 := by
  constructor
  · have hle : ∀ b ∈ nibbleBytes, b.toNat ≤ 15 := by decide
    exact hle b
  · intro h
    exact List.mem_map.2 ⟨b.toNat, by simp; omega, by simp⟩

/-- The core's check holds exactly of the orders of the bytes 0 to 15. -/
theorem isPerm_iff_perm {e : List Byte} (hl : e.length = 16) :
    isPerm e = true ↔ nibbleBytes.Perm e := by
  refine ⟨perm_nibbleBytes_of_isPerm hl, fun h => ?_⟩
  have hbytes : isPerm nibbleBytes = true := by decide
  simpa only [isPerm, h.count_eq] using hbytes

/-- Form (a) of 40_sbox.md R70, by numbers: below 16 a value is one byte. -/
theorem isPerm_iff_countP (e : List Byte) :
    isPerm e = true ↔ ∀ v, v < 16 → (e.countP fun b => b.toNat = v) = 1 := by
  have hcount (v : Nat) (hv : v < 16) :
      e.count (BitVec.ofNat 8 v) = e.countP fun b => b.toNat = v := by
    refine List.countP_congr fun b _ => ?_
    have hbyte : v % 256 = v := by omega
    simp [← BitVec.toNat_inj, hbyte]
  simp only [isPerm, List.all_eq_true, List.mem_range, beq_iff_eq]
  exact forall₂_congr fun v hv => by rw [hcount v hv]

/-- Form (b) of 40_sbox.md R70: sixteen different entries of the sixteen allowed are all of them. -/
theorem isPerm_iff_nodup {e : List Byte} (hl : e.length = 16) :
    isPerm e = true ↔ (∀ b ∈ e, b.toNat ≤ 15) ∧ e.Nodup := by
  rw [isPerm_iff_perm hl]
  constructor
  · intro h
    exact ⟨fun b hb => mem_nibbleBytes.1 (h.mem_iff.2 hb), h.nodup_iff.1 (by decide)⟩
  · rintro ⟨hle, hnodup⟩
    have hsub : e ⊆ nibbleBytes := fun b hb => mem_nibbleBytes.2 (hle b hb)
    exact ((hnodup.subperm hsub).perm_of_length_le (by rw [hl]; decide)).symm

/-- A property holds of one entry exactly when it holds at one position. -/
theorem countP_eq_one_iff_existsUnique {e : List Byte} {n : Nat} (hl : e.length = n)
    (P : Byte → Prop) [DecidablePred P] :
    (e.countP fun b => P b) = 1 ↔ ∃! i : Fin n, P (e.getD i.val 0) := by
  have he : e = List.ofFn fun i : Fin n => e.getD i.val 0 := by
    refine List.ext_getElem (by simp [hl]) fun i hi _ => ?_
    simp [hi]
  rw [Fintype.existsUnique_iff_card_one]
  conv_lhs => rw [he, ← Multiset.coe_countP, ← Fin.univ_val_map, Multiset.countP_map]
  rfl

/-- Settles O10, by the orders of the bytes 0 to 15. -/
theorem permutationCheckForms : Obligations.PermutationCheckForms := by
  intro e hl
  refine ⟨isPerm_iff_countP e, isPerm_iff_nodup hl, (isPerm_iff_countP e).trans ?_⟩
  exact forall₂_congr fun v _ => countP_eq_one_iff_existsUnique hl fun b => b.toNat = v

end Sys2Proof.Machine

namespace Sys2Proof.Safety

open Sys2Proof.Machine

/-! ### The load -/

/-- Form (b) of 40_sbox.md R70 gives the core's check, form (a). -/
theorem isPerm_of_tableOk {p : List Byte} {t : Nat} (hl : (tableBytesOf p t).length = 16)
    (h : TableOk p t) : isPerm (tableBytesOf p t) = true := by
  obtain ⟨hle, hinj⟩ := h
  refine (isPerm_iff_nodup hl).2 ⟨fun b hb => ?_, ?_⟩
  · obtain ⟨x, hx, rfl⟩ := List.getElem_of_mem hb
    rw [getElem_tableBytesOf]
    exact hle ⟨x, by omega⟩
  · refine List.nodup_iff_injective_get.2 fun x y hxy => ?_
    simp only [List.get_eq_getElem, getElem_tableBytesOf] at hxy
    exact Fin.ext (Fin.mk.inj (hinj ⟨x, by omega⟩ ⟨y, by omega⟩ hxy))

theorem SetOk.validSet {p : List Byte} (h : SetOk p) : validSet p = true := by
  obtain ⟨hl, htables⟩ := h
  refine List.all_eq_true.2 fun t ht => isPerm_of_tableOk ?_ (htables ⟨t, List.mem_range.1 ht⟩)
  have ht8 := List.mem_range.1 ht
  simp only [tableBytesOf, List.length_take, List.length_drop]
  omega

/-- SBOX_LOAD of a valid set (40_sbox.md R72). -/
theorem exec_sboxLoad_of_setOk {p : List Byte} (h : SetOk p) (s : State) :
    exec (.sboxLoad p) s = .next (answer ⟨.ok, []⟩ (commitSet p s)) := by
  simp [exec, execSboxLoad, Config.setBytes, h.1, h.validSet, respondOk]

/-- SBOX_LOAD of anything else (40_sbox.md R72, R74). -/
theorem exec_sboxLoad_of_not_setOk {p : List Byte} (h : ¬ SetOk p) (s : State) :
    exec (.sboxLoad p) s = raise .invalidParameters s := by
  simp only [exec, execSboxLoad]
  split
  · rfl
  · rename_i hl
    have hv : ¬ validSet p = true := fun hv => h (setOk_of_validSet (not_not.1 hl) hv)
    rw [if_neg hv]

/-- Settles O11: the set is committed exactly when form (b) of R70 holds of all eight tables. -/
theorem sboxLoadCommitsOrRejects : Obligations.SboxLoadCommitsOrRejects := by
  refine fun p s => ⟨rfl, fun h => ?_, fun h => exec_sboxLoad_of_not_setOk h s⟩
  exact ⟨_, exec_sboxLoad_of_setOk h s, rfl, h.toNat_lutOf⟩

end Sys2Proof.Safety

namespace Sys2Proof.Machine

/-! ### The lookup -/

theorem lookupReserved_eq (q : Byte) : lookupReserved q = decide (128 ≤ q.toNat) :=
  BitVec.msb_eq_decide q

/-- `q[6:4]` and `q[3:0]` of the operand `16 t + x` are `t` and `x` (30_encoding.md R56). -/
theorem sboxAt_lookup {q : Byte} {t : Fin 8} {x : Fin 16} (h : q.toNat = 16 * t.val + x.val)
    (lut : Lut) : sboxAt lut (lookupTable q).toFin (lookupInput q) = lut[t][x] := by
  have ht : (lookupTable q).toFin = t := by
    apply Fin.ext
    simp only [lookupTable, BitVec.val_toFin, BitVec.extractLsb'_toNat,
      Nat.shiftRight_eq_div_pow, h]
    omega
  have hx : (lookupInput q).toNat = x.val := by
    simp only [lookupInput, BitVec.extractLsb'_toNat, Nat.shiftRight_zero, h]
    omega
  simp [sboxAt, ht, hx]

/-- SBOX_LOOKUP with a wrong LEN or the reserved bit set (40_sbox.md R77). -/
theorem exec_sboxLookup_malformed {p : List Byte} (h : p.length ≠ 1 ∨ 128 ≤ (p.getD 0 0).toNat)
    (s : State) : exec (.sboxLookup p) s = raise .illegalCommand s := by
  simp only [exec, execSboxLookup]
  split
  · rfl
  · rename_i hl
    have hq := h.resolve_left hl
    rw [if_pos (by rw [lookupReserved_eq]; exact decide_eq_true hq)]

/-- SBOX_LOOKUP of a well-formed operand: the entry if a set is loaded (40_sbox.md R77). -/
theorem exec_sboxLookup_wellFormed {p : List Byte} (hl : p.length = 1)
    (hq : (p.getD 0 0).toNat < 128) (s : State) :
    exec (.sboxLookup p) s =
      if s.sboxValid then
        respondOk [(sboxAt s.lut (lookupTable (p.getD 0 0)).toFin
          (lookupInput (p.getD 0 0))).setWidth 8] s
      else raise .notConfigured s := by
  have hr : lookupReserved (p.getD 0 0) = false := by
    rw [lookupReserved_eq]
    exact decide_eq_false (by omega)
  simp only [exec, execSboxLookup, payloadByte, hl, hr, Config.lookupBytes, setLoaded]
  rfl

/-- Settles O12: the checks in the order of R159, then the entry. -/
theorem lookupAnswersTheEntry : Obligations.LookupAnswersTheEntry := by
  refine fun p s => ⟨rfl, fun h => exec_sboxLookup_malformed h s, fun hl hq hv => ?_,
    fun t x hl hq hv => ?_⟩
  · rw [exec_sboxLookup_wellFormed hl hq, if_neg (by simp [hv])]
    rfl
  · rw [exec_sboxLookup_wellFormed hl (by omega), if_pos hv, sboxAt_lookup hq, BitVec.ofNat_toNat]
    rfl

end Sys2Proof.Machine

namespace Sys2Proof.Safety

open Sys2Proof.Machine

/-- Settles O13: the operand `q` is `16 t + x` for one `t` and `x`, and the stored entry is the byte
that was sent. -/
theorem lookupReadsTheLoadedSet : Obligations.LookupReadsTheLoadedSet := by
  intro p q s h hq
  refine ⟨_, exec_sboxLoad_of_setOk h s, fun v hlut hvalid => ?_⟩
  let t : Fin 8 := ⟨q.toNat / 16, by omega⟩
  let x : Fin 16 := ⟨q.toNat % 16, Nat.mod_lt _ (by decide)⟩
  have hsplit : q.toNat = 16 * t.val + x.val := (Nat.div_add_mod _ _).symm
  have hentry : BitVec.ofNat 8 v.lut[t][x].toNat = p.getD q.toNat 0 := by
    have hstored : v.lut[t][x].toNat = (p.getD (16 * t.val + x.val) 0).toNat := by
      rw [hlut]
      exact h.toNat_lutOf t x
    rw [hstored, ← hsplit, BitVec.ofNat_toNat, BitVec.setWidth_eq]
  obtain ⟨-, -, -, hlookup⟩ := lookupAnswersTheEntry [q] v
  rw [hlookup t x rfl hsplit hvalid, hentry]
  exact ⟨_, rfl, rfl, rfl, rfl⟩

end Sys2Proof.Safety

namespace Sys2Proof.Machine

/-! ### The packed tables -/

/-- Two nibbles side by side are a byte by its two hexadecimal digits. -/
theorem toNat_append_nibbles (a b : Nibble) : (a ++ b).toNat = 16 * a.toNat + b.toNat := by
  have hb := b.isLt
  rw [BitVec.toNat_append, ← Nat.shiftLeft_add_eq_or_of_lt hb, Nat.shiftLeft_eq, Nat.mul_comm]

/-- An entry of a packed table (40_sbox.md R78). -/
theorem getElem_packLut (lut : Lut) (i : Fin 4) (y : Fin 256) :
    (packLut lut)[i][y] = (lut[2 * i.val + 1][y.val / 16] ++ lut[2 * i.val][y.val % 16] : Byte) := by
  have hy : y.val / 16 % 16 = y.val / 16 := Nat.mod_eq_of_lt (by omega)
  simp [packLut, sboxAt, Nat.shiftRight_eq_div_pow, hy]

/-- Nibbles `2 i + 1` and `2 i` of a word are the two hexadecimal digits of its byte `i`. -/
theorem toNat_extractLsb'_byte (b : Word) (i : Fin 4) :
    (b.extractLsb' (8 * i.val) 8).toNat / 16 = (nibbleAt b (2 * i.val + 1)).toNat ∧
      (b.extractLsb' (8 * i.val) 8).toNat % 16 = (nibbleAt b (2 * i.val)).toNat := by
  have hlow : 16 ^ (2 * i.val) = 2 ^ (8 * i.val) := by
    rw [pow_mul, pow_mul]
    norm_num
  simp only [toNat_nibbleAt, pow_succ, hlow, BitVec.extractLsb'_toNat, Nat.shiftRight_eq_div_pow,
    ← Nat.div_div_eq_div_mul]
  omega

/-- Byte `i` of the packed lookup holds the substituted nibbles `2 i + 1` and `2 i`. -/
theorem packedByte_packLut (lut : Lut) (i : Fin 4) (b : Word) :
    packedByte (packLut lut) i b =
      ((substNibbles lut b)[2 * i.val + 1] ++ (substNibbles lut b)[2 * i.val] : Byte) := by
  obtain ⟨hhigh, hlow⟩ := toNat_extractLsb'_byte b i
  have hentry := getElem_packLut lut i ⟨(b.extractLsb' (8 * i.val) 8).toNat, BitVec.isLt _⟩
  have hodd := getElem_substNibbles lut b ⟨2 * i.val + 1, by omega⟩
  have heven := getElem_substNibbles lut b ⟨2 * i.val, by omega⟩
  simp only [hhigh, hlow, Fin.getElem_fin] at hentry hodd heven
  rw [hodd, heven]
  exact hentry

/-- JOIN puts neighbouring nibbles side by side in a byte (42_round_function.md R108). -/
theorem joinNibbles_eq_append_bytes (n : Vector Nibble 8) :
    joinNibbles n =
      (n[7] ++ n[6] : Byte) ++ (n[5] ++ n[4] : Byte) ++ (n[3] ++ n[2] : Byte)
        ++ (n[1] ++ n[0] : Byte) := by
  have assoc {w : Nat} (a : BitVec w) (b c : Nibble) : a ++ (b ++ c : Byte) = a ++ b ++ c :=
    BitVec.append_assoc'
  simp only [joinNibbles, assoc]

/-- Settles O28, byte by byte of the word. -/
theorem packedTablesAreEqual : Obligations.PackedTablesAreEqual := by
  refine fun lut => ⟨fun i y => ?_, fun b => ?_⟩
  · rw [getElem_packLut, toNat_append_nibbles]
  · simp only [subPacked, packedByte_packLut]
    exact (joinNibbles_eq_append_bytes _).symm

end Sys2Proof.Machine

/-! SUPPORT. The proofs of the statements about the key schedule (41_key_schedule.md): the two
subkey orders, KEY_LOAD, the commands that do not read K, and the keys under which both orders are
one. -/

namespace Sys2Proof.Machine

/-! ### The subkey orders -/

theorem val_encIdx_of_le {r : Nat} (h : r ≤ 24) : (encIdx r).val = (r - 1) % 8 := by
  rw [encIdx, dif_pos h]

theorem val_encIdx_of_ge {r : Nat} (h : 25 ≤ r) : (encIdx r).val = 32 - r := by
  rw [encIdx, dif_neg (by omega)]

theorem subkey_false (k : Keys) (r : Nat) : subkey k false r = k[encIdx r] := rfl

theorem subkey_true (k : Keys) (r : Nat) : subkey k true r = k[decIdx r] := rfl

/-- Settles O8, by the two ranges of ENC_IDX. -/
theorem encryptionSubkeyOrder : Obligations.EncryptionSubkeyOrder :=
  fun k r _ _ => ⟨val_encIdx_of_le, val_encIdx_of_ge, subkey_false k r⟩

/-- The decryption order begins with the last, reversed group of the encryption order. -/
theorem decIdx_of_le {r : Nat} (h : r ≤ 8) : decIdx r = Fin.ofNat 8 (r - 1) := by
  apply Fin.ext
  rw [decIdx, val_encIdx_of_ge (by omega), Fin.val_ofNat]
  omega

/-- The three forward groups of the encryption order come out reversed. -/
theorem decIdx_of_ge {r : Nat} (h : 9 ≤ r) (hr : r ≤ 32) :
    decIdx r = Fin.ofNat 8 (7 - (r - 1) % 8) := by
  apply Fin.ext
  rw [decIdx, val_encIdx_of_le (by omega), Fin.val_ofNat]
  omega

/-- The table of 41_key_schedule.md R97, counted. -/
theorem countP_encIdx_and_decIdx (j : Fin 8) :
    ((List.range 32).countP fun r => encIdx (r + 1) = j) = 4 ∧
      ((List.range 32).countP fun r => decIdx (r + 1) = j) = 4 := by
  revert j
  decide

/-- Settles O9, by the two ranges of DEC_IDX. -/
theorem decryptionSubkeyOrder : Obligations.DecryptionSubkeyOrder := by
  refine fun k => ⟨fun r _ hr => ⟨rfl, fun h => ?_, fun h => ?_⟩, countP_encIdx_and_decIdx⟩
  · simp only [subkey_true, decIdx_of_le h]
  · simp only [subkey_true, decIdx_of_ge h hr]

/-! ### The load of the key -/

/-- KEY_LOAD of 32 bytes (41_key_schedule.md R90). -/
theorem exec_keyLoad {p : List Byte} (h : p.length = 32) (s : State) :
    exec (.keyLoad p) s = .next (answer ⟨.ok, []⟩ (commitKey p s)) := by
  simp [exec, execKeyLoad, Config.keyBytes, h, respondOk]

/-- KEY_LOAD of any other length (41_key_schedule.md R90, R99). -/
theorem exec_keyLoad_length {p : List Byte} (h : p.length ≠ 32) (s : State) :
    exec (.keyLoad p) s = raise .invalidKeyLength s := by
  simp [exec, execKeyLoad, Config.keyBytes, h]

/-- Settles O14: the length decides, and the words are assembled by LE32. -/
theorem keyLoadCommitsOrRejects : Obligations.KeyLoadCommitsOrRejects := by
  refine fun p s => ⟨rfl, fun h => ⟨_, exec_keyLoad h s, rfl, fun j => ?_⟩,
    fun h => exec_keyLoad_length h s⟩
  rw [answer_k, commitKey_k, getElem_keyWords, payloadWord, toNat_le32]
  rfl

/-! ### The commands that do not read the key -/

/-- `s` with these words in the key registers. -/
def withKey (k : Keys) (s : State) : State := { s with k := k }

section

variable (k : Keys) (p : List Byte) (s : State)

theorem execSboxLoad_withKey :
    execSboxLoad p (withKey k s) = mapNext (withKey k) (execSboxLoad p s) := by
  unfold execSboxLoad
  split
  · rfl
  · split <;> rfl

theorem execSboxLookup_withKey :
    execSboxLookup p (withKey k s) = mapNext (withKey k) (execSboxLookup p s) := by
  have hset : setLoaded (withKey k s) = setLoaded s := rfl
  unfold execSboxLookup
  rw [hset]
  split
  · rfl
  · split
    · rfl
    · split <;> rfl

/-- A rejected key leaves the words that are there; a committed one overwrites them all. -/
theorem exec_keyLoad_withKey :
    exec (.keyLoad p) (withKey k s) = mapNext (withKey k) (exec (.keyLoad p) s) ∨
      exec (.keyLoad p) (withKey k s) = exec (.keyLoad p) s := by
  by_cases h : p.length = 32
  · rw [exec_keyLoad h, exec_keyLoad h]
    exact .inr rfl
  · rw [exec_keyLoad_length h, exec_keyLoad_length h]
    exact .inl rfl

/-- A command other than ENCRYPT and DECRYPT answers the same whatever the key words are, and leaves
them or overwrites them (41_key_schedule.md R93). -/
theorem exec_withKey {i : Instr} (h : ∀ p, i ≠ .encrypt p ∧ i ≠ .decrypt p) :
    exec i (withKey k s) = mapNext (withKey k) (exec i s) ∨ exec i (withKey k s) = exec i s := by
  cases i with
  | sboxLoad p => exact .inl (execSboxLoad_withKey k p s)
  | sboxLookup p => exact .inl (execSboxLookup_withKey k p s)
  | keyLoad p => exact exec_keyLoad_withKey k p s
  | encrypt p => exact absurd rfl (h p).1
  | decrypt p => exact absurd rfl (h p).2
  | reserved00 p => exact .inl rfl
  | reserved06 low p => exact .inl rfl
  | reserved08 low p => exact .inl rfl
  | reserved10 low p => exact .inl rfl
  | reserved20 low p => exact .inl rfl
  | reserved40 low p => exact .inl rfl
  | reserved80 low p => exact .inl rfl

end

/-- Settles O22, command by command. -/
theorem keyReachesOnlyTransformResults : Obligations.KeyReachesOnlyTransformResults := by
  intro i s k' h
  obtain ⟨r, u, he, -⟩ := exec_effect i s
  rcases exec_withKey k' s h with hmap | hsame
  · rw [he] at hmap
    exact ⟨_, _, he, hmap, rfl, .inl rfl⟩
  · exact ⟨_, _, he, hsame.trans he, rfl, .inr rfl⟩

/-! ### Palindromic keys -/

/-- The key words read the same in both orders (41_key_schedule.md R92). -/
def Palindromic (k : Keys) : Prop := ∀ j : Fin 8, k[j] = k[7 - j.val]

/-- In the outer groups of eight rounds the two orders use the same key word, in the two groups
between them opposite ones. Outside rounds 1 to 32 both indices are 0. -/
theorem val_decIdx_eq_or (r : Nat) :
    (decIdx r).val = (encIdx r).val ∨ (decIdx r).val = 7 - (encIdx r).val := by
  simp only [decIdx]
  rcases Nat.lt_or_ge r 9 with h | h
  · rw [val_encIdx_of_le (r := r) (by omega), val_encIdx_of_ge (by omega)]
    omega
  · rw [val_encIdx_of_le (r := 33 - r) (by omega)]
    rcases Nat.lt_or_ge r 25 with h' | h'
    · rw [val_encIdx_of_le (by omega)]
      omega
    · rw [val_encIdx_of_ge h']
      omega

theorem Palindromic.subkey_eq {k : Keys} (h : Palindromic k) (d e : Bool) (r : Nat) :
    subkey k d r = subkey k e r := by
  have htrue : subkey k true r = subkey k false r := by
    rw [subkey_true, subkey_false]
    rcases val_decIdx_eq_or r with hr | hr
    · simp only [Fin.ext hr]
    · simp only [h (encIdx r), Fin.getElem_fin, hr]
  cases d <;> cases e <;> simp only [htrue]

/-- `s` with this value in DIR. -/
def withDir (d : Bool) (s : State) : State := { s with dir := d }

/-- The result of a transform is read from N1 and N2 alone. -/
theorem storeBlock_withDir (d : Bool) (s : State) : storeBlock (withDir d s) = storeBlock s := rfl

section

variable {s : State} (h : Palindromic s.k) (d : Bool)
include h

theorem Palindromic.roundOutput_withDir : roundOutput (withDir d s) = roundOutput s := by
  have hkey := h.subkey_eq d s.dir (s.rc.toNat + 1)
  simp only [roundOutput, withDir, hkey]

theorem Palindromic.roundStep_withDir : roundStep (withDir d s) = withDir d (roundStep s) := by
  rw [roundStep, h.roundOutput_withDir]
  rfl

theorem Palindromic.lastRound_withDir : lastRound (withDir d s) = withDir d (lastRound s) := by
  rw [lastRound, h.roundOutput_withDir]
  rfl

theorem Palindromic.runRounds_withDir (n : Nat) :
    runRounds n (withDir d s) = withDir d (runRounds n s) := by
  induction n generalizing s with
  | zero => rfl
  | succ n ih => rw [runRounds, h.roundStep_withDir, ih (s := roundStep s) h, runRounds]

/-- Under a palindromic key the direction changes nothing but DIR. -/
theorem Palindromic.transform_eq (e : Bool) (p : List Byte) :
    transform d p s = withDir d (transform e p s) := by
  have hload : Palindromic (loadBlock p (withDir e s)).k := h
  have hlast : Palindromic (runRounds (Config.rounds - 1) (loadBlock p (withDir e s))).k := by
    rwa [runRounds_k]
  calc transform d p s
      = lastRound (runRounds (Config.rounds - 1) (withDir d (loadBlock p (withDir e s)))) := rfl
    _ = lastRound (withDir d (runRounds (Config.rounds - 1) (loadBlock p (withDir e s)))) := by
        rw [hload.runRounds_withDir]
    _ = withDir d (transform e p s) := hlast.lastRound_withDir d

/-- Both commands check alike, and their transforms leave the same halves. -/
theorem Palindromic.exec_decrypt_eq_exec_encrypt (p : List Byte) :
    exec (.decrypt p) s = exec (.encrypt p) s := by
  by_cases hl : p.length = 8
  · by_cases hc : s.sboxValid = true ∧ s.keyValid = true
    · obtain ⟨hs, hk⟩ := hc
      have hstore : storeBlock (transform true p s) = storeBlock (transform false p s) := by
        rw [h.transform_eq true false p, storeBlock_withDir]
      have hdec := exec_block true hl hs hk
      rw [hstore] at hdec
      exact hdec.trans (exec_block false hl hs hk).symm
    · exact (exec_block_unconfigured true hl hc).trans (exec_block_unconfigured false hl hc).symm
  · exact (exec_block_length true s hl).trans (exec_block_length false s hl).symm

end

/-- A configured core: every table the identity, and the key word K[0] = 1 before seven zeros, which
is no palindrome. -/
def asymmetricKey : State :=
  { State.reset with
    lut := Vector.replicate 8 (Vector.ofFn fun x => BitVec.ofFin x)
    sboxValid := true
    k := (Vector.replicate 8 0).set 0 1
    keyValid := true }

/-- The two directions of that core differ on the zero block (41_key_schedule.md R92). -/
theorem storeBlock_transform_asymmetricKey :
    storeBlock (transform false (List.replicate 8 0) asymmetricKey) ≠
      storeBlock (transform true (List.replicate 8 0) asymmetricKey) := by
  decide

/-- Settles O29: under a palindromic key both orders are one; under another key a block shows the
difference. -/
theorem palindromicKeysMakeBothEqual : Obligations.PalindromicKeysMakeBothEqual := by
  refine ⟨fun p s h => ?_, List.replicate 8 0, asymmetricKey, _, _,
    exec_block false rfl rfl rfl, exec_block true rfl rfl rfl, ?_⟩
  · obtain ⟨r, u, he, -⟩ := exec_effect (.encrypt p) s
    exact ⟨_, _, he, (Palindromic.exec_decrypt_eq_exec_encrypt h p).trans he, rfl⟩
  · simp only [answer_tx, ne_eq, Option.some.injEq, Response.mk.injEq, true_and]
    exact storeBlock_transform_asymmetricKey

end Sys2Proof.Machine

/-! SUPPORT. The proofs of the statements about the round function (42_round_function.md): addition,
the nibbles of a word, substitution, the rotation, and F, which composes them. -/

namespace Sys2Proof.Machine

open Sys2Proof.Safety (Permutations)

/-! ### Addition -/

theorem add32_comm (a k : Word) : add32 a k = add32 k a := BitVec.add_comm a k

theorem bijective_add32 (k : Word) : Function.Bijective (fun a => add32 a k) :=
  AddGroup.addRight_bijective k

/-- Settles O1: the words under addition are a group. -/
theorem addWrapsModuloWord : Obligations.AddWrapsModuloWord := fun a k =>
  ⟨BitVec.toNat_add a k, add32_comm a k, BitVec.add_zero a, bijective_add32 k⟩

/-! ### The nibbles of a word -/

theorem toNat_eq_sum_nibbleAt (b : Word) :
    b.toNat = ∑ i : Fin 8, (nibbleAt b i.val).toNat * 16 ^ i.val := by
  have hb := b.isLt
  simp only [Fin.sum_univ_eight, toNat_nibbleAt]
  norm_num
  omega

/-- Settles O2: the nibbles are the hexadecimal digits of the word. -/
theorem nibblesPartitionTheWord : Obligations.NibblesPartitionTheWord := fun b =>
  ⟨fun i => toNat_nibbleAt b i.val, toNat_eq_sum_nibbleAt b⟩

/-- A word is determined by its eight nibbles (42_round_function.md R106). -/
theorem eq_of_nibbleAt_eq {b c : Word} (h : ∀ i : Fin 8, nibbleAt b i.val = nibbleAt c i.val) :
    b = c := by
  apply BitVec.eq_of_toNat_eq
  simp only [toNat_eq_sum_nibbleAt b, toNat_eq_sum_nibbleAt c, h]

theorem getLsbD_nibbleAt (b : Word) (i : Nat) {j : Nat} (hj : j < 4) :
    (nibbleAt b i).getLsbD j = b.getLsbD (4 * i + j) := by
  simp [nibbleAt, hj]

/-! ### Substitution -/

/-- Table `i` at nibble `i` of a word is the entry at that hexadecimal digit. -/
theorem sboxAt_nibbleAt {b : Word} {i : Fin 8} {x : Fin 16} (h : b.toNat / 16 ^ i.val % 16 = x.val)
    (lut : Lut) : sboxAt lut i (nibbleAt b i.val) = lut[i][x] := by
  simp only [sboxAt, toNat_nibbleAt, h, Fin.getElem_fin]

/-- Settles O3: SUBST reads nibble `i` alone for position `i`. -/
theorem eachNibbleGoesThroughItsTable : Obligations.EachNibbleGoesThroughItsTable := by
  refine fun lut b i => ⟨fun x hx => ?_, fun c hc => ?_⟩
  · rw [getElem_substNibbles, sboxAt_nibbleAt hx]
  · rw [getElem_substNibbles, getElem_substNibbles, hc]

theorem injective_sboxAt {lut : Lut} (h : Permutations lut) (t : Fin 8) :
    Function.Injective (sboxAt lut t) := fun x y hxy =>
  BitVec.eq_of_toFin_eq (h t x.toFin y.toFin hxy)

/-! ### JOIN -/

/-- A nibble appended to a bit vector of any width is its new lowest hexadecimal digit
(`toNat_append_nibbles` is the case of a byte). -/
theorem toNat_append_nibble {w : Nat} (a : BitVec w) (n : Nibble) :
    (a ++ n).toNat = 16 * a.toNat + n.toNat := by
  rw [BitVec.toNat_append, ← Nat.shiftLeft_add_eq_or_of_lt n.isLt, Nat.shiftLeft_eq, Nat.mul_comm]

theorem toNat_joinNibbles (n : Vector Nibble 8) :
    (joinNibbles n).toNat = ∑ i : Fin 8, n[i].toNat * 16 ^ i.val := by
  simp only [joinNibbles, toNat_append_nibble, Fin.sum_univ_eight, Fin.getElem_fin]
  norm_num
  omega

/-- JOIN and the split are the two directions of the library's base-16 numeration. -/
theorem nibbleAt_joinNibbles (n : Vector Nibble 8) (i : Fin 8) :
    nibbleAt (joinNibbles n) i.val = n[i] := by
  have hjoin : (joinNibbles n).toNat = finFunctionFinEquiv fun j : Fin 8 => n[j].toFin :=
    (toNat_joinNibbles n).trans (finFunctionFinEquiv_apply _).symm
  apply BitVec.eq_of_toNat_eq
  rw [toNat_nibbleAt, hjoin]
  exact congrArg Fin.val (congrFun (finFunctionFinEquiv.symm_apply_apply _) i)

theorem joinNibbles_nibbleAt (b : Word) :
    joinNibbles (Vector.ofFn fun i => nibbleAt b i.val) = b := by
  apply eq_of_nibbleAt_eq
  intro i
  simp [nibbleAt_joinNibbles]

/-! ### SUB -/

theorem nibbleAt_subWord (lut : Lut) (b : Word) (i : Fin 8) :
    nibbleAt (subWord lut b) i.val = sboxAt lut i (nibbleAt b i.val) := by
  rw [subWord, nibbleAt_joinNibbles, getElem_substNibbles]

/-- Eight injections side by side: equal results have equal nibbles, so the words had (R108). -/
theorem injective_subWord {lut : Lut} (h : Permutations lut) :
    Function.Injective (subWord lut) := by
  intro b c hbc
  apply eq_of_nibbleAt_eq
  intro i
  apply injective_sboxAt h i
  rw [← nibbleAt_subWord, ← nibbleAt_subWord, hbc]

theorem bijective_subWord {lut : Lut} (h : Permutations lut) : Function.Bijective (subWord lut) :=
  Finite.injective_iff_bijective.1 (injective_subWord h)

/-- Settles O4, nibble by nibble. -/
theorem joinKeepsPositions : Obligations.JoinKeepsPositions :=
  ⟨fun n => ⟨toNat_joinNibbles n, nibbleAt_joinNibbles n⟩, joinNibbles_nibbleAt,
    fun _ => bijective_subWord⟩

/-! ### The rotation -/

theorem toNat_rol11 (v : Word) :
    (rol11 v).toNat = v.toNat * 2 ^ 11 % 2 ^ 32 + v.toNat / 2 ^ 21 := by
  have hv := v.isLt
  rw [rol11, BitVec.toNat_add, BitVec.toNat_shiftLeft, BitVec.toNat_ushiftRight,
    Nat.shiftLeft_eq, Nat.shiftRight_eq_div_pow]
  omega

theorem getLsbD_rol11 (v : Word) {i : Nat} (hi : i < 32) :
    (rol11 v).getLsbD ((i + 11) % 32) = v.getLsbD i := by
  rw [rol11_eq_rotateLeft, BitVec.getLsbD_rotateLeft]
  rcases Nat.lt_or_ge i 21 with h | h
  · have hidx : (i + 11) % 32 = i + 11 := by omega
    have hin : i + 11 < 32 := by omega
    simp [hidx, hin]
  · have hidx : (i + 11) % 32 = i - 21 := by omega
    have hback : 21 + (i - 21) = i := by omega
    have hwrap : i - 21 < 11 := by omega
    simp [hidx, hback, hwrap]

/-- A rotation right by 11 brings bit `i + 11` (modulo 32) to bit `i`. -/
theorem getLsbD_rotateRight_11 (v : Word) {i : Nat} (hi : i < 32) :
    (v.rotateRight 11).getLsbD i = v.getLsbD ((i + 11) % 32) := by
  rw [BitVec.getLsbD_rotateRight]
  rcases Nat.lt_or_ge i 21 with h | h
  · have hidx : (i + 11) % 32 = 11 + i := by omega
    simp [hidx, h]
  · have hidx : (i + 11) % 32 = i - 21 := by omega
    simp [hidx, hi, Nat.not_lt.2 h]

theorem rotateRight_rol11 : Function.LeftInverse (fun v : Word => v.rotateRight 11) rol11 := by
  intro v
  apply BitVec.eq_of_getLsbD_eq
  intro i hi
  rw [getLsbD_rotateRight_11 _ hi, getLsbD_rol11 v hi]

/-- A rotation left by 21 and one right by 11 are the same two shifts. -/
theorem rotateLeft_21_eq_rotateRight_11 (v : Word) : v.rotateLeft 21 = v.rotateRight 11 :=
  BitVec.or_comm _ _

theorem bijective_rol11 : Function.Bijective rol11 :=
  Finite.injective_iff_bijective.1 rotateRight_rol11.injective

/-- Settles O5: every bit moves up by 11 places, around the word. -/
theorem rotationIsCircular : Obligations.RotationIsCircular :=
  ⟨fun v => ⟨toNat_rol11 v, fun _ => getLsbD_rol11 v, rotateRight_rol11 v,
    (rotateLeft_21_eq_rotateRight_11 _).trans (rotateRight_rol11 v)⟩, bijective_rol11⟩

/-! ### F -/

/-- Bit `j` of substituted nibble `i` of the sum, eleven places up (42_round_function.md R110). -/
theorem getLsbD_roundF (lut : Lut) (a k : Word) (i : Fin 8) {j : Nat} (hj : j < 4) :
    (roundF lut a k).getLsbD ((4 * i.val + j + 11) % 32) =
      (sboxAt lut i (nibbleAt (add32 a k) i.val)).getLsbD j := by
  rw [roundF, getLsbD_rol11 _ (by omega), ← getLsbD_nibbleAt _ _ hj, nibbleAt_subWord]

theorem roundF_comm (lut : Lut) (a k : Word) : roundF lut a k = roundF lut k a := by
  rw [roundF, add32_comm, roundF]

theorem bijective_roundF {lut : Lut} (h : Permutations lut) (k : Word) :
    Function.Bijective (fun a => roundF lut a k) :=
  bijective_rol11.comp ((bijective_subWord h).comp (bijective_add32 k))

/-- Settles O6: F is the addition, SUB and the rotation in turn. -/
theorem roundFunctionBits : Obligations.RoundFunctionBits := by
  refine fun lut k => ⟨fun a i x j hx hj => ?_, fun a => roundF_comm lut a k,
    fun h => bijective_roundF h k⟩
  have hdigit : (add32 a k).toNat / 16 ^ i.val % 16 = x.val := by
    rw [add32, BitVec.toNat_add, hx]
  rw [getLsbD_roundF lut a k i hj, sboxAt_nibbleAt hdigit]

end Sys2Proof.Machine

/-! SUPPORT. The proofs of the statements about the block transform (43_block_transform.md): the row
of halves that the rounds compute, the transform as its end, its inverse, and the commands that keep
the set and the key. -/

namespace Sys2Proof.Machine

/-! ### The row of halves -/

/-- The halves of the transform of a payload's block, in a row. Entries 0 and 1 are N2 and N1 as
loaded (43_block_transform.md R120); entry `r + 1` is the half that round `r` computes, from the two
before it (R121). After round `r` up to 31, N1 is entry `r + 1` and N2 is entry `r`; round 32, without
the exchange, leaves entry 32 in N1 and entry 33 in N2 (R122). -/
def blockHalf (lut : Lut) (k : Keys) (dir : Bool) (p : List Byte) : Nat → Word
  | 0 => payloadWord p 4
  | 1 => payloadWord p 0
  | r + 2 => xor32 (blockHalf lut k dir p r)
      (roundF lut (blockHalf lut k dir p (r + 1)) (subkey k dir (r + 1)))

/-- The result of a transform of a payload's block, as a function of LUT, K and the direction. -/
def transformBlock (lut : Lut) (k : Keys) (dir : Bool) (p : List Byte) : List Byte :=
  bytes32 (blockHalf lut k dir p 32) ++ bytes32 (blockHalf lut k dir p 33)

theorem blockHalf_succ_succ (lut : Lut) (k : Keys) (dir : Bool) (p : List Byte) (r : Nat) :
    blockHalf lut k dir p (r + 2) =
      xor32 (blockHalf lut k dir p r)
        (roundF lut (blockHalf lut k dir p (r + 1)) (subkey k dir (r + 1))) := rfl

@[simp] theorem length_transformBlock (lut : Lut) (k : Keys) (dir : Bool) (p : List Byte) :
    (transformBlock lut k dir p).length = 8 := rfl

/-! ### The rounds of the core follow the row -/

/-- The output of the round that comes after `n` rounds, in which RC counts to `n`. -/
theorem roundOutput_runRounds {n : Nat} (hn : n ≤ 31) (dir : Bool) (p : List Byte) (s : State) :
    roundOutput (runRounds n (loadBlock p { s with dir := dir })) =
      roundF s.lut (runRounds n (loadBlock p { s with dir := dir })).n1
        (subkey s.k dir (n + 1)) := by
  have hrc : (BitVec.ofNat 6 n).toNat = n := by
    rw [BitVec.toNat_ofNat]
    exact Nat.mod_eq_of_lt (by omega)
  simp [roundOutput, runRounds_loadBlock_rc, hrc]

theorem runRounds_halves {n : Nat} (hn : n ≤ 31) (dir : Bool) (p : List Byte) (s : State) :
    (runRounds n (loadBlock p { s with dir := dir })).n1 = blockHalf s.lut s.k dir p (n + 1) ∧
      (runRounds n (loadBlock p { s with dir := dir })).n2 = blockHalf s.lut s.k dir p n := by
  induction n with
  | zero => exact ⟨rfl, rfl⟩
  | succ n ih =>
    obtain ⟨hn1, hn2⟩ := ih (by omega)
    rw [runRounds_succ_last, roundStep_n1, roundStep_n2, roundOutput_runRounds (by omega), hn1, hn2]
    exact ⟨rfl, rfl⟩

/-- What the core stores after round 32 is the end of the row (43_block_transform.md R123, R124). -/
theorem storeBlock_transform (dir : Bool) (p : List Byte) (s : State) :
    storeBlock (transform dir p s) = transformBlock s.lut s.k dir p := by
  obtain ⟨hn1, hn2⟩ := runRounds_halves (Nat.le_refl 31) dir p s
  have hout := roundOutput_runRounds (Nat.le_refl 31) dir p s
  rw [storeBlock, transform, Config.rounds, lastRound_n1, lastRound_n2, hout, hn1, hn2]
  rfl

/-! ### The inverse -/

/-- The decryption order is the encryption order reversed, and the other way round
(41_key_schedule.md R95). -/
theorem subkey_not (k : Keys) (dir : Bool) {r : Nat} (hr : r ≤ 33) :
    subkey k (!dir) r = subkey k dir (33 - r) := by
  cases dir with
  | false => rfl
  | true => simp only [Bool.not_true, subkey_false, subkey_true, decIdx, Nat.sub_sub_self hr]

/-- The row of the result, under the other direction, is the row of the block read backwards: an
exclusive-or with the same round output undoes itself, whatever the tables are
(43_block_transform.md R129). -/
theorem blockHalf_transformBlock (lut : Lut) (k : Keys) (dir : Bool) (p : List Byte) {i : Nat}
    (hi : i ≤ 33) :
    blockHalf lut k (!dir) (transformBlock lut k dir p) i = blockHalf lut k dir p (33 - i) := by
  induction i using Nat.twoStepInduction with
  | zero => exact payloadWord_bytes32 _
  | one => exact payloadWord_bytes32 _
  | more i ih ih' =>
    obtain ⟨j, hj⟩ : ∃ j, j + i = 31 := ⟨31 - i, by omega⟩
    have h2 : 33 - i = j + 2 := by omega
    have h1 : 33 - (i + 1) = j + 1 := by omega
    have h0 : 33 - (i + 1 + 1) = j := by omega
    rw [blockHalf_succ_succ, ih (by omega), ih' (by omega), subkey_not k dir (by omega), h2, h1, h0,
      blockHalf_succ_succ, xor32, xor32, BitVec.xor_assoc, BitVec.xor_self, BitVec.xor_zero]

/-- Storing the halves of a block gives the block. -/
theorem bytes32_payloadWord {p : List Byte} (hl : p.length = 8) :
    bytes32 (payloadWord p 0) ++ bytes32 (payloadWord p 4) = p := by
  rw [payloadWord, payloadWord, bytes32_le32, bytes32_le32]
  match p, hl with
  | [_, _, _, _, _, _, _, _], _ => rfl

/-- The two directions are inverse to each other (43_block_transform.md R128, R129). -/
theorem transformBlock_not_transformBlock (lut : Lut) (k : Keys) (dir : Bool) {p : List Byte}
    (hl : p.length = 8) :
    transformBlock lut k (!dir) (transformBlock lut k dir p) = p := by
  rw [transformBlock, blockHalf_transformBlock lut k dir p (by decide),
    blockHalf_transformBlock lut k dir p (by decide)]
  exact bytes32_payloadWord hl

/-! ### The form without exchanges -/

/-- Each pair of rounds moves the two registers two entries on in the row. -/
theorem pairRounds_blockHalf (lut : Lut) (k : Keys) (dir : Bool) (p : List Byte) (n m : Nat) :
    pairRounds lut k dir n m (blockHalf lut k dir p (2 * m + 1), blockHalf lut k dir p (2 * m)) =
      (blockHalf lut k dir p (2 * (m + n) + 1), blockHalf lut k dir p (2 * (m + n))) := by
  induction n generalizing m with
  | zero => rfl
  | succ n ih =>
    rw [← Nat.add_assoc, Nat.add_right_comm]
    exact ih (m + 1)

/-- The two registers end at entries 33 and 32, which are sent second first (43_block_transform.md
R131). -/
theorem exchangeFree_eq_transformBlock (lut : Lut) (k : Keys) (dir : Bool) (p : List Byte) :
    exchangeFree lut k dir p = transformBlock lut k dir p := by
  have hpairs := pairRounds_blockHalf lut k dir p 16 0
  simp only [exchangeFree]
  exact congrArg (fun ab : Word × Word => bytes32 ab.2 ++ bytes32 ab.1) hpairs

end Sys2Proof.Machine

namespace Sys2Proof.Safety

open Sys2Proof.Machine

/-! ### ENCRYPT and DECRYPT -/

theorem WorkOnly.persistent_eq {s t : State} (h : WorkOnly s t) : persistent t = persistent s := by
  rw [WorkOnly] at h
  rw [h]
  rfl

/-- ENCRYPT and DECRYPT of a block answer the block transformed under the persistent state, which
must be configured, and write work registers only (43_block_transform.md R125 to R127). -/
theorem answers_block {p : List Byte} {s v : State} (dir : Bool) (hv : persistent v = persistent s)
    (hl : p.length = 8) (hs : s.sboxValid = true) (hk : s.keyValid = true) :
    Answers (exec (if dir then .decrypt p else .encrypt p) v)
      ⟨.ok, transformBlock s.lut s.k dir p⟩ (WorkOnly v) := by
  simp only [persistent, Prod.mk.injEq] at hv
  obtain ⟨hlut, hset, hwords, hkey⟩ := hv
  rw [← hlut, ← hwords, ← storeBlock_transform]
  exact ⟨_, exec_block dir hl (hset.trans hs) (hkey.trans hk), rfl, rfl, rfl⟩

/-- Settles O27: both forms end with the same two entries of the row of halves. -/
theorem exchangeFreeFormIsEqual : Obligations.ExchangeFreeFormIsEqual := by
  intro dir p s hl hs hk
  rw [exchangeFree_eq_transformBlock]
  exact answers_block dir rfl hl hs hk

/-- Settles O26: the two functions are the transforms under the tables and the key of the state. -/
theorem transformsAreInverseBijections : Obligations.TransformsAreInverseBijections := by
  intro s hs hk
  refine ⟨transformBlock s.lut s.k false, transformBlock s.lut s.k true, fun p hl => ?_,
    fun p v hl hv => ?_⟩
  · exact ⟨rfl, rfl, transformBlock_not_transformBlock s.lut s.k false hl,
      transformBlock_not_transformBlock s.lut s.k true hl⟩
  · exact ⟨answers_block false hv hl hs hk, answers_block true hv hl hs hk⟩

/-! ### The round sequence of the statement -/

theorem toNat_payloadWord (p : List Byte) (i : Nat) :
    (payloadWord p i).toNat = (p.getD i 0).toNat + 2 ^ 8 * (p.getD (i + 1) 0).toNat
      + 2 ^ 16 * (p.getD (i + 2) 0).toNat + 2 ^ 24 * (p.getD (i + 3) 0).toNat :=
  toNat_le32 _ _ _ _

/-- The row of halves, read as N1 and N2 after each round, is a round sequence. -/
theorem roundSequence_blockHalf (lut : Lut) (k : Keys) (dir : Bool) (p : List Byte) :
    RoundSequence lut k dir p (fun r => blockHalf lut k dir p (if r = 32 then 32 else r + 1))
      (fun r => blockHalf lut k dir p (if r = 32 then 33 else r)) where
  loadA := toNat_payloadWord p 0
  loadB := toNat_payloadWord p 4
  roundA r h1 h31 := by
    obtain ⟨n, rfl⟩ := Nat.exists_eq_add_of_le' h1
    have hn : n ≠ 32 := by omega
    have hn' : n + 1 ≠ 32 := by omega
    simp only [if_neg hn, if_neg hn', Nat.add_sub_cancel]
    rfl
  roundB r h1 h31 := by
    obtain ⟨n, rfl⟩ := Nat.exists_eq_add_of_le' h1
    have hn : n ≠ 32 := by omega
    have hn' : n + 1 ≠ 32 := by omega
    simp only [if_neg hn, if_neg hn', Nat.add_sub_cancel]
  lastA := rfl
  lastB := rfl

section

variable {lut : Lut} {k : Keys} {dir : Bool} {p : List Byte} {A B : Nat → Word}
  (h : RoundSequence lut k dir p A B)
include h

/-- Up to round 31 every round sequence of a block is its row of halves. -/
theorem RoundSequence.eq_blockHalf {r : Nat} (hr : r ≤ 31) :
    A r = blockHalf lut k dir p (r + 1) ∧ B r = blockHalf lut k dir p r := by
  induction r with
  | zero =>
    exact ⟨BitVec.eq_of_toNat_eq (h.loadA.trans (toNat_payloadWord p 0).symm),
      BitVec.eq_of_toNat_eq (h.loadB.trans (toNat_payloadWord p 4).symm)⟩
  | succ r ih =>
    obtain ⟨hA, hB⟩ := ih (by omega)
    rw [h.roundA (r + 1) (by omega) hr, h.roundB (r + 1) (by omega) hr, Nat.add_sub_cancel, hA, hB]
    exact ⟨rfl, rfl⟩

/-- The halves after round 32 are those the core stores. -/
theorem RoundSequence.bytes32_eq_transformBlock :
    bytes32 (A 32) ++ bytes32 (B 32) = transformBlock lut k dir p := by
  obtain ⟨hA, hB⟩ := h.eq_blockHalf (Nat.le_refl 31)
  rw [h.lastA, h.lastB, hA, hB]
  rfl

end

/-- BYTES32 by division (20_memory.md R36). -/
theorem bytes32_eq_map (v : Word) :
    bytes32 v = (List.range 4).map fun i => BitVec.ofNat 8 (v.toNat / 256 ^ i) := by
  have hbyte (i : Nat) : v.extractLsb' (8 * i) 8 = BitVec.ofNat 8 (v.toNat / 256 ^ i) := by
    rw [BitVec.extractLsb', Nat.shiftRight_eq_div_pow, pow_mul]
    rfl
  calc bytes32 v
      = (List.range 4).map fun i => v.extractLsb' (8 * i) 8 := rfl
    _ = (List.range 4).map fun i => BitVec.ofNat 8 (v.toNat / 256 ^ i) := by simp only [hbyte]

/-- Settles O15: the checks in their order, and the one round sequence of the block. -/
theorem transformRunsThirtyTwoRounds : Obligations.TransformRunsThirtyTwoRounds := by
  intro dir p s
  refine ⟨?_, exec_block_length dir s, exec_block_unconfigured dir,
    fun hl hs hk => ⟨⟨_, _, roundSequence_blockHalf s.lut s.k dir p⟩, fun A B h => ?_⟩⟩
  · cases dir <;> rfl
  · rw [← bytes32_eq_map, ← bytes32_eq_map, h.bytes32_eq_transformBlock]
    exact answers_block dir rfl hl hs hk

/-! ### What keeps the set and the key -/

/-- A command that is no successful SBOX_LOAD keeps LUT and SBOX_VALID. -/
theorem keeps_set_of_effect {i : Instr} {s u : State} {r : Response} (h : Effect i s r u)
    (hi : ∀ q, i = .sboxLoad q → ¬ SetOk q) : u.lut = s.lut ∧ u.sboxValid = s.sboxValid := by
  cases h with
  | error e he => exact ⟨rfl, rfl⟩
  | looked y p hi' hv => exact ⟨rfl, rfl⟩
  | set p hi' hl hv => exact absurd (setOk_of_validSet hl hv) (hi p hi')
  | key p hi' hl => exact ⟨rfl, rfl⟩
  | block dir p hi' hl hs hk => exact ⟨rfl, rfl⟩

/-- A command that is no successful KEY_LOAD keeps K and KEY_VALID. -/
theorem keeps_key_of_effect {i : Instr} {s u : State} {r : Response} (h : Effect i s r u)
    (hi : ∀ q, i = .keyLoad q → q.length ≠ 32) : u.k = s.k ∧ u.keyValid = s.keyValid := by
  cases h with
  | error e he => exact ⟨rfl, rfl⟩
  | looked y p hi' hv => exact ⟨rfl, rfl⟩
  | set p hi' hl hv => exact ⟨rfl, rfl⟩
  | key p hi' hl => exact absurd hl (hi p hi')
  | block dir p hi' hl hs hk => exact ⟨rfl, rfl⟩

/-- What holds of a state, and is kept by each of the commands and by the delivery of its response,
holds after them all. -/
theorem afterCommands_induction {P : State → Prop} {is : List Instr}
    (hstep : ∀ i ∈ is, ∀ s u r, Effect i s r u → P s → P (deliver (answer r u)))
    {s : State} (hs : P s) : P (afterCommands is s) := by
  induction is generalizing s with
  | nil => exact hs
  | cons i is ih =>
    obtain ⟨r, u, he, hu⟩ := exec_effect i s
    rw [afterCommands_cons he]
    exact ih (fun j hj => hstep j (List.mem_cons_of_mem i hj))
      (hstep i List.mem_cons_self s u r hu hs)

/-- No successful SBOX_LOAD among the commands: LUT and SBOX_VALID are as they were. -/
theorem afterCommands_keeps_set {is : List Instr} (his : ∀ q, .sboxLoad q ∈ is → ¬ SetOk q)
    (s : State) :
    (afterCommands is s).lut = s.lut ∧ (afterCommands is s).sboxValid = s.sboxValid := by
  refine afterCommands_induction (P := fun t => t.lut = s.lut ∧ t.sboxValid = s.sboxValid)
    (fun i hi t u r hu ht => ?_) ⟨rfl, rfl⟩
  obtain ⟨hlut, hset⟩ := keeps_set_of_effect hu fun q hq => his q (hq ▸ hi)
  exact ⟨hlut.trans ht.1, hset.trans ht.2⟩

/-- No successful KEY_LOAD among the commands: K and KEY_VALID are as they were. -/
theorem afterCommands_keeps_key {is : List Instr} (his : ∀ q, .keyLoad q ∈ is → q.length ≠ 32)
    (s : State) :
    (afterCommands is s).k = s.k ∧ (afterCommands is s).keyValid = s.keyValid := by
  refine afterCommands_induction (P := fun t => t.k = s.k ∧ t.keyValid = s.keyValid)
    (fun i hi t u r hu ht => ?_) ⟨rfl, rfl⟩
  obtain ⟨hkeys, hkey⟩ := keeps_key_of_effect hu fun q hq => his q (hq ▸ hi)
  exact ⟨hkeys.trans ht.1, hkey.trans ht.2⟩

theorem persistent_afterCommands {is : List Instr} (hsets : ∀ q, .sboxLoad q ∈ is → ¬ SetOk q)
    (hkeys : ∀ q, .keyLoad q ∈ is → q.length ≠ 32) (s : State) :
    persistent (afterCommands is s) = persistent s := by
  obtain ⟨hlut, hset⟩ := afterCommands_keeps_set hsets s
  obtain ⟨hwords, hkey⟩ := afterCommands_keeps_key hkeys s
  simp only [persistent, hlut, hset, hwords, hkey]

/-- Settles O25: the commands between keep LUT and K, under which the two transforms are inverse. -/
theorem decryptRecoversTheBlock : Obligations.DecryptRecoversTheBlock := by
  intro p s hl hs hk
  obtain ⟨u, hu, hutx, -, hwork⟩ := answers_block false rfl hl hs hk
  refine ⟨_, u, length_transformBlock _ _ _ _, hu, hutx, fun is hsets hkeys => ?_⟩
  have hkept : persistent (afterCommands is (deliver u)) = persistent s :=
    (persistent_afterCommands hsets hkeys (deliver u)).trans hwork.persistent_eq
  have hinv : transformBlock s.lut s.k true (transformBlock s.lut s.k false p) = p :=
    transformBlock_not_transformBlock s.lut s.k false hl
  obtain ⟨t, ht, httx, hphase, -⟩ :=
    answers_block true hkept (length_transformBlock s.lut s.k false p) hs hk
  rw [hinv] at httx
  exact ⟨t, ht, httx, hphase, trivial⟩

end Sys2Proof.Safety

/-! SUPPORT. The proofs of the statements about the host's ECB sequence
(44_ecb_host_sequence.md): a buffer and its blocks, one exchange with a core between commands, the
blocks in their order, and the whole call. -/

namespace Sys2Proof.Machine

/-! ### A buffer and its blocks -/

theorem blocksOf_append {b : List Byte} (hb : b.length = 8) (rest : List Byte) :
    blocksOf (b ++ rest) = b :: blocksOf rest := by
  have hcount : (b ++ rest).length / 8 = rest.length / 8 + 1 := by
    rw [List.length_append, hb]
    omega
  have hdrop (i : Nat) : (b ++ rest).drop (8 * (i + 1)) = rest.drop (8 * i) := by
    rw [Nat.mul_succ, Nat.add_comm, ← hb, List.drop_length_add_append]
  simp only [blocksOf, Config.blockBytes, hcount, List.range_succ_eq_map, List.map_cons,
    List.map_map, Nat.mul_zero, List.drop_zero, List.take_left' hb]
  exact congrArg _ (List.map_congr_left fun i _ => congrArg _ (hdrop i))

@[simp] theorem length_blocksOf (src : List Byte) : (blocksOf src).length = src.length / 8 := by
  simp [blocksOf, Config.blockBytes]

theorem getElem?_blocksOf {src : List Byte} {i : Nat} (hi : i < src.length / 8) :
    (blocksOf src)[i]? = some ((src.drop (8 * i)).take 8) := by
  simp [blocksOf, Config.blockBytes, hi]

theorem length_of_mem_blocksOf {src b : List Byte} (h : b ∈ blocksOf src) : b.length = 8 := by
  obtain ⟨i, hi, rfl⟩ := List.mem_map.1 h
  simp only [List.mem_range, Config.blockBytes] at hi
  simp only [List.length_take, List.length_drop, Config.blockBytes]
  omega

/-- Joining blocks and cutting the buffer apart again gives the blocks. -/
theorem blocksOf_flatten {bs : List (List Byte)} (h : ∀ b ∈ bs, b.length = 8) :
    blocksOf bs.flatten = bs := by
  induction bs with
  | nil => rfl
  | cons b bs ih =>
    obtain ⟨hb, hbs⟩ := List.forall_mem_cons.1 h
    rw [List.flatten_cons, blocksOf_append hb, ih hbs]

/-- A nonempty buffer of whole blocks begins with a block, and whole blocks follow. -/
theorem eq_block_append {src : List Byte} (hl : src.length % 8 = 0) (hne : src ≠ []) :
    ∃ b rest, b.length = 8 ∧ rest.length % 8 = 0 ∧ src = b ++ rest := by
  have hpos := List.length_pos_iff.2 hne
  refine ⟨src.take 8, src.drop 8, ?_, ?_, (List.take_append_drop 8 src).symm⟩
  · rw [List.length_take]
    omega
  · rw [List.length_drop]
    omega

/-- Cutting a buffer of whole blocks apart and joining the blocks again gives the buffer. -/
theorem flatten_blocksOf (src : List Byte) (hl : src.length % 8 = 0) :
    (blocksOf src).flatten = src := by
  by_cases hne : src = []
  · rw [hne]
    rfl
  · obtain ⟨b, rest, hb, hrest, hsrc⟩ := eq_block_append hl hne
    rw [hsrc, blocksOf_append hb, List.flatten_cons, flatten_blocksOf rest hrest]
termination_by src.length
decreasing_by simp [hsrc, hb]

/-! ### What the blocks become -/

/-- The output of ECB over a buffer: each block transformed by itself
(44_ecb_host_sequence.md R144). -/
def ecbOutput (lut : Lut) (k : Keys) (dir : Bool) (src : List Byte) : List Byte :=
  ((blocksOf src).map (transformBlock lut k dir)).flatten

theorem blocksOf_ecbOutput (lut : Lut) (k : Keys) (dir : Bool) (src : List Byte) :
    blocksOf (ecbOutput lut k dir src) = (blocksOf src).map (transformBlock lut k dir) :=
  blocksOf_flatten fun b hb => by
    obtain ⟨p, -, rfl⟩ := List.mem_map.1 hb
    exact length_transformBlock lut k dir p

theorem length_ecbOutput (lut : Lut) (k : Keys) (dir : Bool) {src : List Byte}
    (hl : src.length % 8 = 0) : (ecbOutput lut k dir src).length = src.length := by
  have hsum : (ecbOutput lut k dir src).length = src.length / 8 * 8 := by
    simp [ecbOutput, List.length_flatten, Function.comp_def]
  omega

/-- Block `i` of the output is block `i` of the source, transformed. -/
theorem take_drop_ecbOutput (lut : Lut) (k : Keys) (dir : Bool) {src : List Byte} {i : Nat}
    (hl : src.length % 8 = 0) (hi : i < src.length / 8) :
    ((ecbOutput lut k dir src).drop (8 * i)).take 8 =
      transformBlock lut k dir ((src.drop (8 * i)).take 8) := by
  have hout : i < (ecbOutput lut k dir src).length / 8 := by rwa [length_ecbOutput lut k dir hl]
  have hblock := congrArg (·[i]?) (blocksOf_ecbOutput lut k dir src)
  simpa [getElem?_blocksOf hout, getElem?_blocksOf hi] using hblock

/-- ECB in the other direction undoes ECB, block by block (44_ecb_host_sequence.md R147). -/
theorem ecbOutput_not_ecbOutput (lut : Lut) (k : Keys) (dir : Bool) {src : List Byte}
    (hl : src.length % 8 = 0) : ecbOutput lut k (!dir) (ecbOutput lut k dir src) = src := by
  have hinv : ((blocksOf src).map (transformBlock lut k dir)).map (transformBlock lut k (!dir)) =
      blocksOf src := by
    rw [List.map_map]
    exact (List.map_congr_left fun b hb =>
      transformBlock_not_transformBlock lut k dir (length_of_mem_blocksOf hb)).trans (List.map_id _)
  rw [ecbOutput, blocksOf_ecbOutput, hinv, flatten_blocksOf src hl]

/-! ### The sequence of frames -/

theorem hostSend_nil (s : State) : hostSend [] s = s := by rw [hostSend, List.append_nil]

theorem wellFormed_blockCommand (dir : Bool) {b : List Byte} (hb : b.length = 8) :
    (blockCommand dir b).wellFormed = true := by
  have hpayload : (blockCommand dir b).payload = b := by cases dir <;> rfl
  rw [wellFormed_iff, hpayload]
  omega

section

variable {dir : Bool} {b : List Byte} {s t : State}

/-- The sequence goes on after a block that was answered OK. -/
theorem ecbBlocks_cons_ok {q : List Byte} (bs : List (List Byte))
    (h : exchange (blockCommand dir b) s = some (⟨.ok, q⟩, t)) :
    ecbBlocks dir (b :: bs) s =
      (ecbBlocks dir bs t).map fun (e, out, u) => (e, q ++ out, u) := by
  rw [ecbBlocks, h]
  rfl

/-- The sequence ends at the first block that was answered with an error. -/
theorem ecbBlocks_cons_error {r : Response} (bs : List (List Byte)) (hr : r.status ≠ .ok)
    (h : exchange (blockCommand dir b) s = some (r, t)) :
    ecbBlocks dir (b :: bs) s = some (r.status, [], t) := by
  rw [ecbBlocks, h]
  exact if_neg hr

end

/-! ### The checks of the call -/

section

variable (dir : Bool) {dst src : List Byte} (s : State)

theorem cryptBlocks_of_length (hl : src.length % 8 ≠ 0) :
    cryptBlocks dir dst src s = some (.invalidInputLength, dst, s) := if_pos hl

theorem cryptBlocks_of_short (hl : src.length % 8 = 0) (hd : dst.length < src.length) :
    cryptBlocks dir dst src s = some (.bufferTooSmall, dst, s) :=
  (if_neg (not_not.2 hl)).trans (if_pos hd)

/-- Where both checks pass, the call is the sequence of frames, and the destination is written only
if its status is OK. -/
theorem cryptBlocks_of_checks (hl : src.length % 8 = 0) (hd : src.length ≤ dst.length) :
    cryptBlocks dir dst src s =
      (ecbBlocks dir (blocksOf src) s).map fun (e, out, t) =>
        if e = .ok then (e, out ++ dst.drop src.length, t) else (e, dst, t) :=
  (if_neg (not_not.2 hl)).trans (if_neg (Nat.not_lt.2 hd))

end

end Sys2Proof.Machine

namespace Sys2Proof.Safety

open Sys2Proof.Machine

/-- Settles O45, by the two checks; an empty source has no blocks. -/
theorem ecbChecksComeFirst : Obligations.EcbChecksComeFirst := by
  refine fun dir dst src s => ⟨cryptBlocks_of_length dir s, cryptBlocks_of_short dir s, ?_⟩
  rintro rfl
  exact cryptBlocks_of_checks dir s rfl (Nat.zero_le _)

/-! ### One exchange with a core between commands -/

/-- The host reads exactly the response of the command it sent, on a core between commands. -/
theorem Ready.exchange_eq {i : Instr} {s u : State} {r : Response} (h : Ready s)
    (hi : i.wellFormed = true) (he : exec i s = .next (answer r u)) (hu : Effect i s r u) :
    exchange i s = some (r, deliver (answer r u)) := by
  have hstep : cycle (hostSend (encode i) s) = .next (deliver (answer r u)) := by
    have hsent := h.step_hostSend hi he hu []
    rwa [List.append_nil, hostSend_nil] at hsent
  simp only [exchange, hstep, (h.deliver_answer hu).2, List.drop_left]

section

variable {s : State} {b : List Byte} (dir : Bool) (h : Ready s) (hb : b.length = 8)
include h hb

/-- A configured core answers a block with its transform, keeps its persistent state and is between
commands again. -/
theorem Ready.exchange_block (hs : s.sboxValid = true) (hk : s.keyValid = true) :
    ∃ t, exchange (blockCommand dir b) s = some (⟨.ok, transformBlock s.lut s.k dir b⟩, t) ∧
      persistent t = persistent s ∧ Ready t ∧ t.rsp.length = s.rsp.length + 1 := by
  have hu : Effect (blockCommand dir b) s _ _ := .block dir b rfl hb hs hk
  obtain ⟨hready, hrsp⟩ := h.deliver_answer hu
  rw [← storeBlock_transform]
  exact ⟨_, h.exchange_eq (wellFormed_blockCommand dir hb) (exec_block dir hb hs hk) hu, rfl,
    hready, by rw [hrsp, List.length_append, List.length_singleton]⟩

/-- A core without set or key refuses a block and keeps its persistent state. -/
theorem Ready.exchange_unconfigured (hc : ¬ (s.sboxValid = true ∧ s.keyValid = true)) :
    ∃ t, exchange (blockCommand dir b) s = some (⟨.notConfigured, []⟩, t) ∧
      persistent t = persistent s :=
  ⟨_, h.exchange_eq (wellFormed_blockCommand dir hb) (exec_block_unconfigured dir hb hc)
    (.error _ (by simp)), rfl⟩

end

/-! ### The whole call -/

theorem persistent_eq_iff (s t : State) : persistent s = persistent t ↔
    s.lut = t.lut ∧ s.sboxValid = t.sboxValid ∧ s.k = t.k ∧ s.keyValid = t.keyValid := by
  simp only [persistent, Prod.mk.injEq]

/-- On a configured core every block is answered OK, under the one set and key of the core before
the call (44_ecb_host_sequence.md R144, R145). -/
theorem Ready.ecbBlocks_configured {s : State} {bs : List (List Byte)} (dir : Bool) (h : Ready s)
    (hs : s.sboxValid = true) (hk : s.keyValid = true) (hbs : ∀ b ∈ bs, b.length = 8) :
    ∃ u, ecbBlocks dir bs s = some (.ok, (bs.map (transformBlock s.lut s.k dir)).flatten, u) ∧
      persistent u = persistent s ∧ Ready u ∧ u.rsp.length = s.rsp.length + bs.length := by
  induction bs generalizing s with
  | nil => exact ⟨s, rfl, rfl, h, rfl⟩
  | cons b bs ih =>
    obtain ⟨hb, hbs⟩ := List.forall_mem_cons.1 hbs
    obtain ⟨t, hex, hpers, ht, hrsp⟩ := h.exchange_block dir hb hs hk
    obtain ⟨hlut, hset, hwords, hkey⟩ := (persistent_eq_iff t s).1 hpers
    obtain ⟨u, hecb, hpers', hu, hrsp'⟩ := ih ht (hset.trans hs) (hkey.trans hk) hbs
    refine ⟨u, ?_, hpers'.trans hpers, hu, ?_⟩
    · rw [ecbBlocks_cons_ok bs hex, hecb, hlut, hwords]
      rfl
    · rw [hrsp', hrsp, List.length_cons]
      omega

/-- CryptBlocks on a configured core: what it leaves in the destination and in the core. -/
theorem Ready.cryptBlocks_configured {s : State} {dst src : List Byte} (dir : Bool) (h : Ready s)
    (hs : s.sboxValid = true) (hk : s.keyValid = true) (hl : src.length % 8 = 0)
    (hd : src.length ≤ dst.length) :
    ∃ u, cryptBlocks dir dst src s =
        some (.ok, ecbOutput s.lut s.k dir src ++ dst.drop src.length, u) ∧
      persistent u = persistent s ∧ Ready u ∧ u.rsp.length = s.rsp.length + src.length / 8 := by
  obtain ⟨u, hecb, hpers, hu, hrsp⟩ :=
    h.ecbBlocks_configured dir hs hk fun _ hb => length_of_mem_blocksOf (src := src) hb
  rw [length_blocksOf] at hrsp
  refine ⟨u, ?_, hpers, hu, hrsp⟩
  rw [cryptBlocks_of_checks dir s hl hd, hecb]
  rfl

/-- Settles O46: the output is `ecbOutput`, whose blocks are the answers to the source blocks. -/
theorem ecbTransformsEachBlock : Obligations.EcbTransformsEachBlock := by
  intro dir dst src s h hs hk hl hd
  obtain ⟨u, hcrypt, hpers, hu, hrsp⟩ := h.cryptBlocks_configured dir hs hk hl hd
  refine ⟨_, u, hcrypt, length_ecbOutput _ _ dir hl, hpers, hu, hrsp, fun i hi => ?_⟩
  have hblock : ((src.drop (8 * i)).take 8).length = 8 := by
    rw [List.length_take, List.length_drop]
    omega
  rw [take_drop_ecbOutput _ _ dir hl hi]
  obtain ⟨t, he, htx, hphase, -⟩ := answers_block dir rfl hblock hs hk
  exact ⟨t, he, htx, hphase, trivial⟩

/-- In place, the call on a configured core leaves exactly the ECB output in the buffer. -/
theorem Ready.cryptBlocks_inPlace {s : State} {src : List Byte} (dir : Bool) (h : Ready s)
    (hs : s.sboxValid = true) (hk : s.keyValid = true) (hl : src.length % 8 = 0) :
    ∃ u, cryptBlocks dir src src s = some (.ok, ecbOutput s.lut s.k dir src, u) ∧
      persistent u = persistent s ∧ Ready u := by
  obtain ⟨u, hcrypt, hpers, hu, -⟩ := h.cryptBlocks_configured dir hs hk hl (Nat.le_refl _)
  rw [List.drop_length, List.append_nil] at hcrypt
  exact ⟨u, hcrypt, hpers, hu⟩

/-- Settles O47: the first call keeps the set and the key, under which the second undoes it. -/
theorem ecbRoundTrip : Obligations.EcbRoundTrip := by
  intro src s h hs hk hl
  obtain ⟨u, hencrypt, hpers, hu⟩ := h.cryptBlocks_inPlace false hs hk hl
  obtain ⟨hlut, hset, hwords, hkey⟩ := (persistent_eq_iff u s).1 hpers
  obtain ⟨v, hdecrypt, -⟩ := hu.cryptBlocks_inPlace true (hset.trans hs) (hkey.trans hk)
    (by rw [length_ecbOutput s.lut s.k false hl, hl])
  have hinv : ecbOutput s.lut s.k true (ecbOutput s.lut s.k false src) = src :=
    ecbOutput_not_ecbOutput s.lut s.k false hl
  rw [hlut, hwords, hinv] at hdecrypt
  exact ⟨_, u, v, hencrypt, hdecrypt⟩

/-- Settles O48: the first block is refused, which ends the call. -/
theorem ecbOnUnconfiguredCoreFails : Obligations.EcbOnUnconfiguredCoreFails := by
  intro dir dst src s h hc hl hne hd
  rw [cryptBlocks_of_checks dir s hl hd]
  obtain ⟨b, rest, hb, -, rfl⟩ := eq_block_append hl hne
  obtain ⟨u, hex, hpers⟩ := h.exchange_unconfigured dir hb hc
  rw [blocksOf_append hb, ecbBlocks_cons_error _ (by simp) hex]
  exact ⟨u, rfl, hpers⟩

end Sys2Proof.Safety

/-! SUPPORT. The proofs of the statements about errors (60_exceptions.md): the order of the checks of
each command, what a command that fails leaves as it was, and the idle core. -/

namespace Sys2Proof.Safety

open Sys2Proof.Machine

/-! ### The status of an outcome -/

/-- The outcome of a command is a next state whose response has this status. -/
def HasStatus (o : Result) (e : Status) : Prop :=
  ∃ u r, o = .next u ∧ u.tx = some r ∧ r.status = e

theorem hasStatus_answer (r : Response) (s : State) : HasStatus (.next (answer r s)) r.status :=
  ⟨_, r, rfl, rfl, rfl⟩

theorem hasStatus_raise (e : Status) (s : State) : HasStatus (raise e s) e :=
  hasStatus_answer ⟨e, []⟩ s

theorem hasStatus_respondOk (p : List Byte) (s : State) : HasStatus (respondOk p s) .ok :=
  hasStatus_answer ⟨.ok, p⟩ s

/-! ### The first failing check, opcode by opcode -/

section

variable (p : List Byte) (sboxValid keyValid : Bool)

/-- The two checks of SBOX_LOAD fail with one status (60_exceptions.md R159). -/
theorem firstFailing_sboxLoad :
    firstFailing 0x01 p sboxValid keyValid = if SetOk p then .ok else .invalidParameters :=
  (ite_and ..).symm

/-- LEN and the reserved bit of SBOX_LOOKUP fail with one status, before the missing set. -/
theorem firstFailing_sboxLookup :
    firstFailing 0x02 p sboxValid keyValid =
      if p.length ≠ 1 ∨ 128 ≤ (p.getD 0 0).toNat then .illegalCommand
      else if sboxValid then .ok else .notConfigured := by
  rw [ite_or, ite_not]
  rfl

theorem firstFailing_keyLoad :
    firstFailing 0x03 p sboxValid keyValid = if p.length = 32 then .ok else .invalidKeyLength := rfl

theorem firstFailing_block (dir : Bool) :
    firstFailing (if dir then 0x05 else 0x04) p sboxValid keyValid =
      if p.length = 8 then if sboxValid ∧ keyValid then .ok else .notConfigured
      else .invalidBlockSize := by
  cases dir <;> rfl

/-- A reserved opcode fails the first check of all. -/
theorem firstFailing_reserved {op : Byte} (h : op.toNat = 0 ∨ 6 ≤ op.toNat) :
    firstFailing op p sboxValid keyValid = .illegalCommand := by
  rw [firstFailing, if_neg (by omega), if_neg (by omega), if_neg (by omega), if_neg (by omega)]

end

/-! ### The status of each command -/

section

variable (p : List Byte) (s : State)

theorem hasStatus_sboxLoad :
    HasStatus (exec (.sboxLoad p) s) (firstFailing 0x01 p s.sboxValid s.keyValid) := by
  rw [firstFailing_sboxLoad]
  split
  · rw [exec_sboxLoad_of_setOk ‹_›]
    exact hasStatus_answer _ _
  · rw [exec_sboxLoad_of_not_setOk ‹_›]
    exact hasStatus_raise _ _

theorem hasStatus_sboxLookup :
    HasStatus (exec (.sboxLookup p) s) (firstFailing 0x02 p s.sboxValid s.keyValid) := by
  rw [firstFailing_sboxLookup]
  split
  · rw [exec_sboxLookup_malformed ‹_›]
    exact hasStatus_raise _ _
  · rename_i hwf
    rw [exec_sboxLookup_wellFormed (by omega) (by omega)]
    split
    · exact hasStatus_respondOk _ _
    · exact hasStatus_raise _ _

theorem hasStatus_keyLoad :
    HasStatus (exec (.keyLoad p) s) (firstFailing 0x03 p s.sboxValid s.keyValid) := by
  rw [firstFailing_keyLoad]
  split
  · rw [exec_keyLoad ‹_›]
    exact hasStatus_answer _ _
  · rw [exec_keyLoad_length ‹_›]
    exact hasStatus_raise _ _

theorem hasStatus_block (dir : Bool) :
    HasStatus (exec (if dir then .decrypt p else .encrypt p) s)
      (firstFailing (if dir then 0x05 else 0x04) p s.sboxValid s.keyValid) := by
  rw [firstFailing_block]
  by_cases hl : p.length = 8
  · rw [if_pos hl]
    by_cases hc : s.sboxValid = true ∧ s.keyValid = true
    · obtain ⟨hs, hk⟩ := hc
      rw [exec_block dir hl hs hk, if_pos ⟨hs, hk⟩]
      exact hasStatus_answer _ _
    · rw [if_neg hc, exec_block_unconfigured dir hl hc]
      exact hasStatus_raise _ _
  · rw [if_neg hl, exec_block_length dir s hl]
    exact hasStatus_raise _ _

theorem hasStatus_reserved {op : Byte} (h : op.toNat = 0 ∨ 6 ≤ op.toNat) :
    HasStatus (exec (decodeOpcode op p) s) (firstFailing op p s.sboxValid s.keyValid) := by
  rw [firstFailing_reserved p _ _ h, exec_of_reserved (by rwa [opcodeOf_decodeOpcode])]
  exact hasStatus_raise _ _

/-- An opcode is that of one of the five commands, or it is reserved (30_encoding.md R52, R61). -/
theorem opcode_cases (op : Byte) :
    op = 0x01 ∨ op = 0x02 ∨ op = 0x03 ∨ op = 0x04 ∨ op = 0x05 ∨ op.toNat = 0 ∨ 6 ≤ op.toNat := by
  bv_omega

/-- The command an opcode selects answers the status of its first failing check. -/
theorem hasStatus_decodeOpcode (op : Byte) :
    HasStatus (exec (decodeOpcode op p) s) (firstFailing op p s.sboxValid s.keyValid) := by
  obtain rfl | rfl | rfl | rfl | rfl | h := opcode_cases op
  · exact hasStatus_sboxLoad p s
  · exact hasStatus_sboxLookup p s
  · exact hasStatus_keyLoad p s
  · exact hasStatus_block p s false
  · exact hasStatus_block p s true
  · exact hasStatus_reserved p s h

end

/-- Settles O18, by the opcode: a command is the one its opcode selects. -/
theorem checksAreMadeInOrder : Obligations.ChecksAreMadeInOrder := by
  intro i s
  have h := hasStatus_decodeOpcode i.payload s (opcodeOf i)
  rwa [decodeOpcode_opcodeOf] at h

end Sys2Proof.Safety

namespace Sys2Proof.Machine

/-! ### Errors -/

/-- A command that answers an error has written nothing and has no result (60_exceptions.md R160). -/
theorem Effect.of_status_ne_ok {i : Instr} {s u : State} {r : Response} (h : Effect i s r u)
    (hr : r.status ≠ .ok) : u = s ∧ r = ⟨r.status, []⟩ := by
  cases h with
  | error e he => exact ⟨rfl, rfl⟩
  | looked y p hi hv => exact absurd rfl hr
  | set p hi hl hv => exact absurd rfl hr
  | key p hi hl => exact absurd rfl hr
  | block dir p hi hl hs hk => exact absurd rfl hr

/-- Settles O19: the state after the error is the state before with the response in progress, which
the next step delivers. -/
theorem errorsChangeNothing : Obligations.ErrorsChangeNothing := by
  intro i s u r h htx hr
  obtain ⟨r', v, he, hv⟩ := exec_effect i s
  obtain rfl : answer r' v = u := by simpa [he] using h
  obtain rfl : r' = r := by simpa using htx
  obtain ⟨rfl, hres⟩ := hv.of_status_ne_ok hr
  refine ⟨by rw [hres]; rfl, rfl, rfl, fun hrst hread => ?_⟩
  exact step_resp hrst rfl hread

/-! ### The idle core -/

/-- Settles O37, by that case of the step. -/
theorem idleCoreDoesNothing : Obligations.IdleCoreDoesNothing :=
  fun _ => step_idle_empty

end Sys2Proof.Machine

/-! SUPPORT. The proofs of the statements about reset and hazards (70_reset_and_hazards.md): the
loads before the first command that needs them, the two ways the core waits, and reset. -/

namespace Sys2Proof.Safety

open Sys2Proof.Machine

/-! ### Loading set and key -/

/-- Settles O23: either order commits the same set and the same key. -/
theorem loadsCommute : Obligations.LoadsCommute := by
  intro set key s hset hkey
  rw [afterCommands_cons (exec_sboxLoad_of_setOk hset s), afterCommands_cons (exec_keyLoad hkey _),
    afterCommands_cons (exec_keyLoad hkey s), afterCommands_cons (exec_sboxLoad_of_setOk hset _)]
  exact ⟨rfl, rfl⟩

/-- A lookup without a set is refused and otherwise harmless (70_reset_and_hazards.md R178). -/
theorem answers_lookup_unconfigured {q : Byte} {s : State} (hq : q.toNat < 128)
    (hs : s.sboxValid = false) :
    Answers (exec (.sboxLookup [q]) s) ⟨.notConfigured, []⟩
      (fun u => persistent u = persistent s) := by
  have he : exec (.sboxLookup [q]) s = raise .notConfigured s := by
    rw [exec_sboxLookup_wellFormed (p := [q]) rfl hq, if_neg (by simp [hs])]
  exact ⟨_, he, rfl, rfl, rfl⟩

/-- A transform without set or key is refused and otherwise harmless
(70_reset_and_hazards.md R178). -/
theorem answers_block_unconfigured {p : List Byte} {s : State} (dir : Bool) (hl : p.length = 8)
    (h : s.sboxValid = false ∨ s.keyValid = false) :
    Answers (exec (if dir then .decrypt p else .encrypt p) s) ⟨.notConfigured, []⟩
      (fun u => persistent u = persistent s) := by
  have hc : ¬ (s.sboxValid = true ∧ s.keyValid = true) := by
    rcases h with h | h <;> simp [h]
  exact ⟨_, exec_block_unconfigured dir hl hc, rfl, rfl, rfl⟩

/-- Settles O24: commands that load no set keep SBOX_VALID = 0, and commands that load no key keep
KEY_VALID = 0. -/
theorem notConfiguredUntilLoaded : Obligations.NotConfiguredUntilLoaded := by
  refine fun is s block q hl hq => ⟨fun hs hsets => ?_, fun hk hkeys => ?_⟩
  · have hset : (afterCommands is s).sboxValid = false :=
      (afterCommands_keeps_set hsets s).2.trans hs
    exact ⟨answers_lookup_unconfigured hq hset, answers_block_unconfigured false hl (.inl hset),
      answers_block_unconfigured true hl (.inl hset)⟩
  · have hkey : (afterCommands is s).keyValid = false :=
      (afterCommands_keeps_key hkeys s).2.trans hk
    exact ⟨answers_block_unconfigured false hl (.inr hkey),
      answers_block_unconfigured true hl (.inr hkey)⟩

end Sys2Proof.Safety

namespace Sys2Proof

/-- Bytes that begin with no command's frame end before their first frame does. -/
theorem length_lt_frameLength {bytes : List Byte}
    (h : ∀ i rest, i.wellFormed = true → bytes ≠ encode i ++ rest) :
    bytes.length < frameLength bytes := by
  by_contra hwhole
  obtain ⟨i, hd, hi⟩ := decode_whole (Nat.not_lt.1 hwhole)
  exact h i _ hi (encode_append_of_decode hd)

end Sys2Proof

namespace Sys2Proof.Machine

/-! ### Taking a frame -/

/-- With bytes sent a step takes a frame, begun in IDLE or continued in RECV. -/
theorem step_takes {s : State} (hrst : s.rst = false)
    (hp : s.phase = .recv ∨ (s.phase = .idle ∧ s.rxbuf = [])) (hc : s.cmd ≠ []) :
    step s = takeFrame s := by
  rcases hp with hp | ⟨hp, hrx⟩
  · exact step_recv hrst hp hc
  · rw [step_idle hrst hp hc, openFrame, ← hrx]

/-- An incomplete frame is taken as far as it has been sent. -/
theorem takeFrame_incomplete {s : State}
    (h : (s.rxbuf ++ s.cmd).length < frameLength (s.rxbuf ++ s.cmd)) :
    takeFrame s = .next { s with phase := .recv, rxbuf := s.rxbuf ++ s.cmd, cmd := [] } := by
  obtain ⟨t, ht, htaken⟩ := takeFrame_taken s
  cases htaken with
  | waits hs =>
    rw [ht, receive, List.take_of_length_le h.le, List.drop_of_length_le h.le]
  | runs i r u hw hd hu => omega

/-- Settles O35: the stuck step, the step that waits, and reset. -/
theorem incompleteFrameWaits : Obligations.IncompleteFrameWaits := by
  refine fun s => ⟨step_recv_empty, fun hrst hp hc hframe => ?_, fun hrst _ => ?_⟩
  · rw [step_takes hrst hp hc, takeFrame_incomplete (length_lt_frameLength hframe)]
  · exact ⟨_, step_reset hrst, rfl, rfl⟩

/-! ### The unread response -/

/-- While the host does not read, the response of a command stays in progress. -/
theorem Effect.handOver_unread {i : Instr} {s u : State} {r : Response} (h : Effect i s r u)
    (hread : s.rspReady = false) : handOver (answer r u) = answer r u := by
  obtain ⟨hready, -⟩ := h.interface
  rw [handOver, answer_rspReady, hready, hread]
  rfl

/-- From `s` to `u` nothing was delivered, and in RESP the response is held. -/
def HoldsResponse (s u : State) : Prop :=
  u.rsp = s.rsp ∧ (u.phase = .resp → u.tx.isSome = true)

theorem Effect.holdsResponse {i : Instr} {s u : State} {r : Response} (h : Effect i s r u)
    (hread : s.rspReady = false) : HoldsResponse s (handOver (answer r u)) := by
  obtain ⟨-, -, -, hrsp, -⟩ := h.interface
  rw [h.handOver_unread hread]
  exact ⟨hrsp, fun _ => rfl⟩

theorem Taken.holdsResponse {s u : State} (h : Taken s u) (hread : s.rspReady = false) :
    HoldsResponse s u := by
  cases h with
  | waits hs => exact ⟨rfl, nofun⟩
  | runs i r u hw hd hu => exact hu.holdsResponse hread

/-- Settles O36: the stuck step and the delivery, and the other phases by the cases of a step. -/
theorem unreadResponseBlocks : Obligations.UnreadResponseBlocks := by
  refine fun s hrst => ⟨step_resp_unread hrst, step_resp hrst, fun hread hphase u hstep => ?_⟩
  cases step_cases hstep with
  | reset hr => simp [hrst] at hr
  | nothing hr hp hc => exact ⟨rfl, fun hp' => absurd hp' hphase⟩
  | opened u hr hp hc ht => exact ht.holdsResponse (s := openFrame s) hread
  | continued u hr hp hc ht => exact ht.holdsResponse hread
  | executed i rest r u hr hp hd hu => exact hu.holdsResponse hread
  | delivered hr hp hrd => exact absurd hp hphase

/-! ### Reset -/

/-- Settles O38: reset is entered from every phase, and gives the values after power-on. -/
theorem resetAbandonsTheCommand : Obligations.ResetAbandonsTheCommand :=
  ⟨fun _ hrst => ⟨_, step_reset hrst, rfl, rfl, rfl, rfl, rfl, rfl⟩, rfl, rfl, rfl, rfl, rfl, rfl⟩

end Sys2Proof.Machine

namespace Sys2Proof.Safety

open Sys2Proof.Machine

/-! ### The two stuck states -/

section

variable {s : State}

/-- Between frames RXBUF is empty: the invariant gives the two states in which a frame is taken. -/
theorem Inv.recv_or_noFrame (h : Inv s) (hp : s.phase = .idle ∨ s.phase = .recv) :
    s.phase = .recv ∨ (s.phase = .idle ∧ s.rxbuf = []) := by
  rcases hp with hp | hp
  · have hf := h.framing
    simp only [PhaseConsistent, hp] at hf
    exact .inr ⟨hp, hf.1⟩
  · exact .inl hp

/-- In EXEC the whole frame is in RXBUF, so its command is answered. -/
theorem Inv.step_exec_next (h : Inv s) (hrst : s.rst = false) (hp : s.phase = .exec) :
    ∃ u, step s = .next u := by
  have hf := h.framing
  simp only [PhaseConsistent, hp] at hf
  obtain ⟨i, hd, -⟩ := decode_whole hf.1.ge
  obtain ⟨r, u, hrun, -⟩ := runFrame_of_decode hd
  exact ⟨_, (step_exec hrst hp).trans hrun⟩

/-- Bytes sent in IDLE or RECV are taken. -/
theorem Inv.step_takes_next (h : Inv s) (hrst : s.rst = false)
    (hp : s.phase = .idle ∨ s.phase = .recv) (hc : s.cmd ≠ []) : ∃ u, step s = .next u := by
  obtain ⟨u, hu, -⟩ := takeFrame_taken s
  exact ⟨u, (step_takes hrst (h.recv_or_noFrame hp) hc).trans hu⟩

/-- The core goes on, or waits for bytes or for the host to read (70_reset_and_hazards.md R181,
R182). -/
theorem Inv.step_next_or_stuck (h : Inv s) :
    (∃ u, step s = .next u) ∨
      (s.rst = false ∧ s.phase = .recv ∧ s.cmd = [] ∧ step s = .fault .frameIncomplete) ∨
      (s.rst = false ∧ s.phase = .resp ∧ s.rspReady = false ∧
        step s = .fault .responseUnread) := by
  cases hrst : s.rst with
  | true => exact .inl ⟨_, step_reset hrst⟩
  | false =>
    cases hp : s.phase with
    | idle =>
      by_cases hc : s.cmd = []
      · exact .inl ⟨_, step_idle_empty hrst hp hc⟩
      · exact .inl (h.step_takes_next hrst (.inl hp) hc)
    | recv =>
      by_cases hc : s.cmd = []
      · exact .inr (.inl ⟨rfl, rfl, hc, step_recv_empty hrst hp hc⟩)
      · exact .inl (h.step_takes_next hrst (.inr hp) hc)
    | exec => exact .inl (h.step_exec_next hrst hp)
    | resp =>
      cases hread : s.rspReady with
      | true => exact .inl ⟨_, step_resp hrst hp hread⟩
      | false => exact .inr (.inr ⟨rfl, rfl, rfl, step_resp_unread hrst hp hread⟩)

end

/-- A whole frame before a reading host is answered in the step that takes it: one response more,
and the bytes after the frame left to be taken (70_reset_and_hazards.md R185). -/
theorem takeFrame_answers {s : State} {i : Instr} {rest : List Byte} (hi : i.wellFormed = true)
    (hread : s.rspReady = true) (hbytes : s.rxbuf ++ s.cmd = encode i ++ rest) :
    ∃ u r, takeFrame s = .next u ∧ u.rsp = s.rsp ++ [r] ∧ u.phase = .idle ∧ u.cmd = rest := by
  obtain ⟨r, u, he, hu⟩ := exec_effect i (inExec (encode i) rest s)
  obtain ⟨hready, -, hcmd, hrsp, -⟩ := hu.interface
  have hdelivered : handOver (answer r u) = deliver (answer r u) := if_pos (hready.trans hread)
  refine ⟨deliver (answer r u), r, ?_, ?_, rfl, hcmd⟩
  · rw [takeFrame_encode hi hbytes, runFrame_encode hi rfl he, hdelivered]
  · rw [deliver_rsp, answer_rsp, answer_tx, hrsp]
    rfl

/-- Settles O39, by the phases of the core and the answer to a whole frame. -/
theorem onlyTheTwoStuckStates : Obligations.OnlyTheTwoStuckStates := by
  refine fun s h => ⟨h.step_next_or_stuck, fun i rest hi hrst hread hp hc hbytes => ?_⟩
  rw [step_takes hrst (h.recv_or_noFrame hp) hc]
  exact takeFrame_answers hi hread hbytes

end Sys2Proof.Safety
